-- ==== Sys2Proof/Word.lean ====
section
/-! DEFINITION. The words of the machine: 8-bit bytes, 16-bit words (00_scope.md R6, R7), and joining two bytes into a word. -/

namespace Sys2Proof

/-- A byte: a general register, a timer, a memory cell (10_state.md R20). -/
abbrev Byte := BitVec 8

/-- A 16-bit word: an instruction, I, pc, a return address (10_state.md R20). -/
abbrev Word := BitVec 16

/-- The number of a general register, 0 to 15 (00_scope.md R8). -/
abbrev Reg := Fin 16

/-- `hi : lo`, that is `(hi << 8) | lo` (00_scope.md R7, 20_memory.md R66). -/
def Word.ofBytes (hi lo : Byte) : Word := hi ++ lo

/-- The high byte of a word, bits 15..8. -/
def Word.hi (w : Word) : Byte := w.extractLsb' 8 8

/-- The low byte of a word, bits 7..0. -/
def Word.lo (w : Word) : Byte := w.extractLsb' 0 8

end Sys2Proof
end

