-- ==== Sys2Proof/Syntax.lean ====
section
/-! DEFINITION. The 34 instructions of spec/opcode_table.json, one constructor a row (30_encoding.md R95, R100), in the table's order, each with the operand fields of 30_encoding.md R94. -/

namespace Sys2Proof

/-- An instruction. `x` and `y` are register numbers, `n` a 4-bit, `nn` an 8-bit immediate, `nnn` a 12-bit address (00_scope.md R8,
30_encoding.md R91). -/
inductive Instr where
  /-- 00E0 `CLS` (44_display.md R271). -/
  | cls
  /-- 00EE `RET` (41_control.md R171). -/
  | ret
  /-- 1nnn `JP nnn` (41_control.md R172). -/
  | jp (nnn : BitVec 12)
  /-- 2nnn `CALL nnn` (41_control.md R173). -/
  | call (nnn : BitVec 12)
  /-- 3xnn `SE Vx, nn` (41_control.md R174). -/
  | seImm (x : Reg) (nn : Byte)
  /-- 4xnn `SNE Vx, nn` (41_control.md R175). -/
  | sneImm (x : Reg) (nn : Byte)
  /-- 5xy0 `SE Vx, Vy` (41_control.md R176). -/
  | seReg (x y : Reg)
  /-- 6xnn `LD Vx, nn` (42_alu.md R202). -/
  | ldImm (x : Reg) (nn : Byte)
  /-- 7xnn `ADD Vx, nn` (42_alu.md R203). -/
  | addImm (x : Reg) (nn : Byte)
  /-- 8xy0 `LD Vx, Vy` (42_alu.md R204). -/
  | ldReg (x y : Reg)
  /-- 8xy1 `OR Vx, Vy` (42_alu.md R205). -/
  | orReg (x y : Reg)
  /-- 8xy2 `AND Vx, Vy` (42_alu.md R206). -/
  | andReg (x y : Reg)
  /-- 8xy3 `XOR Vx, Vy` (42_alu.md R207). -/
  | xorReg (x y : Reg)
  /-- 8xy4 `ADD Vx, Vy` (42_alu.md R209). -/
  | addReg (x y : Reg)
  /-- 8xy5 `SUB Vx, Vy` (42_alu.md R210). -/
  | sub (x y : Reg)
  /-- 8xy6 `SHR Vx`; `y` is decoded and not read (42_alu.md R211). -/
  | shr (x y : Reg)
  /-- 8xy7 `SUBN Vx, Vy` (42_alu.md R212). -/
  | subn (x y : Reg)
  /-- 8xyE `SHL Vx`; `y` is decoded and not read (42_alu.md R213). -/
  | shl (x y : Reg)
  /-- 9xy0 `SNE Vx, Vy` (41_control.md R177). -/
  | sneReg (x y : Reg)
  /-- Annn `LD I, nnn` (43_index_memory.md R241). -/
  | ldI (nnn : BitVec 12)
  /-- Bnnn `JP V0, nnn` (41_control.md R178). -/
  | jpV0 (nnn : BitVec 12)
  /-- Cxnn `RND Vx, nn` (42_alu.md R214). -/
  | rnd (x : Reg) (nn : Byte)
  /-- Dxyn `DRW Vx, Vy, n` (44_display.md R273). -/
  | drw (x y : Reg) (n : BitVec 4)
  /-- Ex9E `SKP Vx` (45_timers_keys.md R291). -/
  | skp (x : Reg)
  /-- ExA1 `SKNP Vx` (45_timers_keys.md R292). -/
  | sknp (x : Reg)
  /-- Fx07 `LD Vx, DT` (45_timers_keys.md R293). -/
  | ldXDt (x : Reg)
  /-- Fx0A `LD Vx, K` (45_timers_keys.md R296). -/
  | ldXK (x : Reg)
  /-- Fx15 `LD DT, Vx` (45_timers_keys.md R294). -/
  | ldDtX (x : Reg)
  /-- Fx18 `LD ST, Vx` (45_timers_keys.md R295). -/
  | ldStX (x : Reg)
  /-- Fx1E `ADD I, Vx` (43_index_memory.md R242). -/
  | addI (x : Reg)
  /-- Fx29 `LD F, Vx` (43_index_memory.md R243). -/
  | ldF (x : Reg)
  /-- Fx33 `LD B, Vx` (43_index_memory.md R244). -/
  | ldB (x : Reg)
  /-- Fx55 `LD [I], Vx` (43_index_memory.md R245). -/
  | ldMemX (x : Reg)
  /-- Fx65 `LD Vx, [I]` (43_index_memory.md R246). -/
  | ldXMem (x : Reg)
  deriving DecidableEq, Repr

end Sys2Proof
end

