-- ==== Sys2Proof/Decode.lean ====
section
/-! DEFINITION. The decoder (30_encoding.md R94), total on words and on bytes, the encoder, and the opcode table as data (30_encoding.md R95). The patterns are PRESUMED: the spec's own D1, "from general knowledge, not in source" (log entry 13). -/

namespace Sys2Proof

/-- `x = w[11:8]` (30_encoding.md R91). -/
def fieldX (w : Word) : Reg := (w.extractLsb' 8 4).toFin

/-- `y = w[7:4]` (30_encoding.md R91). -/
def fieldY (w : Word) : Reg := (w.extractLsb' 4 4).toFin

/-- `n = w[3:0]` (30_encoding.md R91). -/
def fieldN (w : Word) : BitVec 4 := w.extractLsb' 0 4

/-- `nn = w[7:0]` (30_encoding.md R91). -/
def fieldNN (w : Word) : Byte := w.extractLsb' 0 8

/-- `nnn = w[11:0]` (30_encoding.md R91). -/
def fieldNNN (w : Word) : BitVec 12 := w.extractLsb' 0 12

/-- The top nibble `n3 = w[15:12]` (00_scope.md R7). -/
def topNibble (w : Word) : BitVec 4 := w.extractLsb' 12 4

/-- What the decoder answers for a word (30_encoding.md R94, R100): one of the 34 instructions, or the explicit unknown-opcode outcome
carrying the raw word (30_encoding.md R96). -/
inductive Decoded where
  /-- The word is this instruction. -/
  | known (i : Instr)
  /-- No instruction has this word; dispatching it is the fatal UnknownOpcode (40_cycle.md R145). -/
  | unknown (w : Word)
  deriving DecidableEq, Repr

/-- Group 0x0, decided on the whole word (30_encoding.md R94, 92_eei_decisions.md D2; log entry 14). -/
def decodeGroup0 (w : Word) : Decoded :=
  if w = 0x00E0#16 then .known .cls
  else if w = 0x00EE#16 then .known .ret
  else .unknown w

/-- Group 0x8, by the low nibble (30_encoding.md R94). -/
def decodeGroup8 (w : Word) : Decoded :=
  match fieldN w with
  | 0x0#4 => .known (.ldReg (fieldX w) (fieldY w))
  | 0x1#4 => .known (.orReg (fieldX w) (fieldY w))
  | 0x2#4 => .known (.andReg (fieldX w) (fieldY w))
  | 0x3#4 => .known (.xorReg (fieldX w) (fieldY w))
  | 0x4#4 => .known (.addReg (fieldX w) (fieldY w))
  | 0x5#4 => .known (.sub (fieldX w) (fieldY w))
  | 0x6#4 => .known (.shr (fieldX w) (fieldY w))
  | 0x7#4 => .known (.subn (fieldX w) (fieldY w))
  | 0xE#4 => .known (.shl (fieldX w) (fieldY w))
  | _ => .unknown w

/-- Group 0xE, by the low byte (30_encoding.md R94). -/
def decodeGroupE (w : Word) : Decoded :=
  match fieldNN w with
  | 0x9E#8 => .known (.skp (fieldX w))
  | 0xA1#8 => .known (.sknp (fieldX w))
  | _ => .unknown w

/-- Group 0xF, by the low byte (30_encoding.md R94). -/
def decodeGroupF (w : Word) : Decoded :=
  match fieldNN w with
  | 0x07#8 => .known (.ldXDt (fieldX w))
  | 0x0A#8 => .known (.ldXK (fieldX w))
  | 0x15#8 => .known (.ldDtX (fieldX w))
  | 0x18#8 => .known (.ldStX (fieldX w))
  | 0x1E#8 => .known (.addI (fieldX w))
  | 0x29#8 => .known (.ldF (fieldX w))
  | 0x33#8 => .known (.ldB (fieldX w))
  | 0x55#8 => .known (.ldMemX (fieldX w))
  | 0x65#8 => .known (.ldXMem (fieldX w))
  | _ => .unknown w

/-- Groups 0x5 and 0x9: `i` when the low nibble is not decoded or is 0 (30_encoding.md R94, 92_eei_decisions.md D3; log entry 8). -/
def decodeLowNibbleFree (lenient : Bool) (i : Instr) (w : Word) : Decoded :=
  if lenient = true ∨ fieldN w = 0x0#4 then .known i else .unknown w

/-- `decode` for either value of the parameter `LENIENT_5_9`: the top nibble first, then the groups that need a second look
(30_encoding.md R94). -/
def decodeWith (lenient : Bool) (w : Word) : Decoded :=
  match topNibble w with
  | 0x0#4 => decodeGroup0 w
  | 0x1#4 => .known (.jp (fieldNNN w))
  | 0x2#4 => .known (.call (fieldNNN w))
  | 0x3#4 => .known (.seImm (fieldX w) (fieldNN w))
  | 0x4#4 => .known (.sneImm (fieldX w) (fieldNN w))
  | 0x5#4 => decodeLowNibbleFree lenient (.seReg (fieldX w) (fieldY w)) w
  | 0x6#4 => .known (.ldImm (fieldX w) (fieldNN w))
  | 0x7#4 => .known (.addImm (fieldX w) (fieldNN w))
  | 0x8#4 => decodeGroup8 w
  | 0x9#4 => decodeLowNibbleFree lenient (.sneReg (fieldX w) (fieldY w)) w
  | 0xA#4 => .known (.ldI (fieldNNN w))
  | 0xB#4 => .known (.jpV0 (fieldNNN w))
  | 0xC#4 => .known (.rnd (fieldX w) (fieldNN w))
  | 0xD#4 => .known (.drw (fieldX w) (fieldY w) (fieldN w))
  | 0xE#4 => decodeGroupE w
  | _ => decodeGroupF w

/-- `LENIENT_5_9`, decided true (92_eei_decisions.md D3; log entry 8). -/
def lenient59 : Bool := true

/-- The machine's decoder (30_encoding.md R94). -/
def decode (w : Word) : Decoded := decodeWith lenient59 w

/-- Why bytes are no instruction. -/
inductive DecodeReject where
  /-- The first word is no instruction (30_encoding.md R96). -/
  | unknownOpcode (w : Word)
  /-- Fewer than two bytes are given; an instruction is exactly two (30_encoding.md R90). -/
  | tooShort
  deriving DecidableEq, Repr

/-- The instruction at the front of a list of bytes, the first byte the high one (20_memory.md R64), with the bytes after it. -/
def decodeBytes : List Byte → Except DecodeReject (Instr × List Byte)
  | hi :: lo :: rest =>
    match decode (Word.ofBytes hi lo) with
    | .known i => .ok (i, rest)
    | .unknown w => .error (.unknownOpcode w)
  | _ => .error .tooShort

/-- The four nibbles of a word, high to low (00_scope.md R7). -/
def ofNibbles (n3 n2 n1 n0 : BitVec 4) : Word := (n3 ++ n2 ++ n1 ++ n0 : BitVec (4 + 4 + 4 + 4))

/-- Format A: a top nibble and a 12-bit address (30_encoding.md R92). -/
def formatA (op : BitVec 4) (nnn : BitVec 12) : Word := op ++ nnn

/-- Format XB: a top nibble, a register and a byte (30_encoding.md R92). -/
def formatXB (op : BitVec 4) (x : Reg) (nn : Byte) : Word := (op ++ BitVec.ofFin x ++ nn : BitVec (4 + 4 + 8))

/-- Formats XY and XYN: a top nibble, two registers and a low nibble (30_encoding.md R92). -/
def formatXYN (op : BitVec 4) (x y : Reg) (n : BitVec 4) : Word := ofNibbles op (BitVec.ofFin x) (BitVec.ofFin y) n

/-- The word of an instruction (30_encoding.md R92, R95). The bits of 5xy? and 9xy? that are not decoded are written 0. -/
def encode : Instr → Word
  | .cls => 0x00E0#16
  | .ret => 0x00EE#16
  | .jp nnn => formatA 0x1#4 nnn
  | .call nnn => formatA 0x2#4 nnn
  | .seImm x nn => formatXB 0x3#4 x nn
  | .sneImm x nn => formatXB 0x4#4 x nn
  | .seReg x y => formatXYN 0x5#4 x y 0x0#4
  | .ldImm x nn => formatXB 0x6#4 x nn
  | .addImm x nn => formatXB 0x7#4 x nn
  | .ldReg x y => formatXYN 0x8#4 x y 0x0#4
  | .orReg x y => formatXYN 0x8#4 x y 0x1#4
  | .andReg x y => formatXYN 0x8#4 x y 0x2#4
  | .xorReg x y => formatXYN 0x8#4 x y 0x3#4
  | .addReg x y => formatXYN 0x8#4 x y 0x4#4
  | .sub x y => formatXYN 0x8#4 x y 0x5#4
  | .shr x y => formatXYN 0x8#4 x y 0x6#4
  | .subn x y => formatXYN 0x8#4 x y 0x7#4
  | .shl x y => formatXYN 0x8#4 x y 0xE#4
  | .sneReg x y => formatXYN 0x9#4 x y 0x0#4
  | .ldI nnn => formatA 0xA#4 nnn
  | .jpV0 nnn => formatA 0xB#4 nnn
  | .rnd x nn => formatXB 0xC#4 x nn
  | .drw x y n => formatXYN 0xD#4 x y n
  | .skp x => formatXB 0xE#4 x 0x9E#8
  | .sknp x => formatXB 0xE#4 x 0xA1#8
  | .ldXDt x => formatXB 0xF#4 x 0x07#8
  | .ldXK x => formatXB 0xF#4 x 0x0A#8
  | .ldDtX x => formatXB 0xF#4 x 0x15#8
  | .ldStX x => formatXB 0xF#4 x 0x18#8
  | .addI x => formatXB 0xF#4 x 0x1E#8
  | .ldF x => formatXB 0xF#4 x 0x29#8
  | .ldB x => formatXB 0xF#4 x 0x33#8
  | .ldMemX x => formatXB 0xF#4 x 0x55#8
  | .ldXMem x => formatXB 0xF#4 x 0x65#8

/-- The bytes of an instruction as memory holds them, high byte at the lower address (20_memory.md R64). -/
def encodeBytes (i : Instr) : List Byte := [(encode i).hi, (encode i).lo]

/-- The row of an instruction in spec/opcode_table.json. -/
def mnemonic : Instr → String
  | .cls => "CLS"
  | .ret => "RET"
  | .jp _ => "JP"
  | .call _ => "CALL"
  | .seImm _ _ => "SE_imm"
  | .sneImm _ _ => "SNE_imm"
  | .seReg _ _ => "SE_reg"
  | .ldImm _ _ => "LD_imm"
  | .addImm _ _ => "ADD_imm"
  | .ldReg _ _ => "LD_reg"
  | .orReg _ _ => "OR"
  | .andReg _ _ => "AND"
  | .xorReg _ _ => "XOR"
  | .addReg _ _ => "ADD_reg"
  | .sub _ _ => "SUB"
  | .shr _ _ => "SHR"
  | .subn _ _ => "SUBN"
  | .shl _ _ => "SHL"
  | .sneReg _ _ => "SNE_reg"
  | .ldI _ => "LD_I"
  | .jpV0 _ => "JP_V0"
  | .rnd _ _ => "RND"
  | .drw _ _ _ => "DRW"
  | .skp _ => "SKP"
  | .sknp _ => "SKNP"
  | .ldXDt _ => "LD_x_DT"
  | .ldXK _ => "LD_x_K"
  | .ldDtX _ => "LD_DT_x"
  | .ldStX _ => "LD_ST_x"
  | .addI _ => "ADD_I"
  | .ldF _ => "LD_F"
  | .ldB _ => "LD_B"
  | .ldMemX _ => "LD_mem_x"
  | .ldXMem _ => "LD_x_mem"

/-- One row of the opcode table: a word `w` is of the row when `w &&& mask = value` (30_encoding.md R95, spec/opcode_table.json). -/
structure OpcodeRow where
  mnemonic : String
  mask : Word
  value : Word
  deriving DecidableEq, Repr

/-- The opcode table, rows 1 to 34 of 30_encoding.md R95 with the masks of spec/opcode_table.json (`LENIENT_5_9 = true`). -/
def opcodeTable : List OpcodeRow :=
  [⟨"CLS", 0xFFFF#16, 0x00E0#16⟩, ⟨"RET", 0xFFFF#16, 0x00EE#16⟩,
   ⟨"JP", 0xF000#16, 0x1000#16⟩, ⟨"CALL", 0xF000#16, 0x2000#16⟩,
   ⟨"SE_imm", 0xF000#16, 0x3000#16⟩, ⟨"SNE_imm", 0xF000#16, 0x4000#16⟩,
   ⟨"SE_reg", 0xF000#16, 0x5000#16⟩, ⟨"LD_imm", 0xF000#16, 0x6000#16⟩,
   ⟨"ADD_imm", 0xF000#16, 0x7000#16⟩, ⟨"LD_reg", 0xF00F#16, 0x8000#16⟩] ++
  [⟨"OR", 0xF00F#16, 0x8001#16⟩, ⟨"AND", 0xF00F#16, 0x8002#16⟩,
   ⟨"XOR", 0xF00F#16, 0x8003#16⟩, ⟨"ADD_reg", 0xF00F#16, 0x8004#16⟩,
   ⟨"SUB", 0xF00F#16, 0x8005#16⟩, ⟨"SHR", 0xF00F#16, 0x8006#16⟩,
   ⟨"SUBN", 0xF00F#16, 0x8007#16⟩, ⟨"SHL", 0xF00F#16, 0x800E#16⟩,
   ⟨"SNE_reg", 0xF000#16, 0x9000#16⟩, ⟨"LD_I", 0xF000#16, 0xA000#16⟩,
   ⟨"JP_V0", 0xF000#16, 0xB000#16⟩, ⟨"RND", 0xF000#16, 0xC000#16⟩] ++
  [⟨"DRW", 0xF000#16, 0xD000#16⟩, ⟨"SKP", 0xF0FF#16, 0xE09E#16⟩,
   ⟨"SKNP", 0xF0FF#16, 0xE0A1#16⟩, ⟨"LD_x_DT", 0xF0FF#16, 0xF007#16⟩,
   ⟨"LD_x_K", 0xF0FF#16, 0xF00A#16⟩, ⟨"LD_DT_x", 0xF0FF#16, 0xF015#16⟩,
   ⟨"LD_ST_x", 0xF0FF#16, 0xF018#16⟩, ⟨"ADD_I", 0xF0FF#16, 0xF01E#16⟩,
   ⟨"LD_F", 0xF0FF#16, 0xF029#16⟩, ⟨"LD_B", 0xF0FF#16, 0xF033#16⟩,
   ⟨"LD_mem_x", 0xF0FF#16, 0xF055#16⟩, ⟨"LD_x_mem", 0xF0FF#16, 0xF065#16⟩]

/-- The word whose bits below `nbits` are those of `w`, bit 0 the least significant bit of the instruction's one word, and whose bits
above are 0. -/
def tableWord (nbits w : Nat) : Word := BitVec.ofNat 16 (w % 2 ^ nbits)

/-- The instruction the decoder reads from the bits of `w`, laid out in bytes as memory holds them; none where it rejects them. -/
def decodeTableWord (nbits w : Nat) : Option Instr :=
  match decodeBytes [(tableWord nbits w).hi, (tableWord nbits w).lo] with
  | .ok (i, _) => some i
  | .error _ => none

end Sys2Proof
end

