-- ==== Sys2Proof/Machine/Flags.lean ====
section
/-! DEFINITION. The values VF takes as a flag (10_state.md R23): carry, no borrow, the bit shifted out. The collision flag is the blit's, in Machine/Display.lean. -/

namespace Sys2Proof.Machine

/-- A flag as the byte VF holds: 1 or 0 (10_state.md R23). -/
def flagByte (b : Bool) : Byte := if b then 1#8 else 0#8

/-- 8xy4: 1 iff `a + b > 255` (42_alu.md R209). -/
def carryFlag (a b : Byte) : Byte := flagByte (decide (a.toNat + b.toNat > 255))

/-- 8xy5 and 8xy7: 1 iff no borrow occurs in `a - b`, that is `a ≥ b` (42_alu.md R210, R212). -/
def noBorrowFlag (a b : Byte) : Byte := flagByte (decide (a.toNat ≥ b.toNat))

/-- 8xy6: the bit a right shift by one drops, `a & 1` (42_alu.md R211). -/
def shiftRightOut (a : Byte) : Byte := a &&& 1#8

/-- 8xyE: the bit a left shift by one drops, `a >> 7` (42_alu.md R213). -/
def shiftLeftOut (a : Byte) : Byte := a >>> 7

end Sys2Proof.Machine
end

