-- ==== Sys2Proof/Config.lean ====
section
/-! DEFINITION. What an implementation fixes and what the spec leaves free (00_scope.md R5): the sizes the source states, the types of the parameters, the open call-stack capacity and the free inputs. The values the spec DECIDED for its parameters stand in Decode.lean and Machine/Params.lean. -/

namespace Sys2Proof.Config

/-- `MEM_SIZE`: addresses 0x000 to 0xFFF exist (00_scope.md R5, 20_memory.md R60). -/
def memSize : Nat := 4096

/-- `PROGRAM_START`: where the loader puts the program and where pc starts (00_scope.md R5, 10_state.md R37). -/
def programStart : Nat := 0x200

/-- `FB_W`, the number of columns of the framebuffer (00_scope.md R5). -/
def fbWidth : Nat := 64

/-- `FB_H`, the number of rows of the framebuffer (00_scope.md R5). -/
def fbHeight : Nat := 32

/-- `GLYPH_SIZE`, the bytes of a glyph (00_scope.md R5). -/
def glyphSize : Nat := 5

/-- `KEY_INDEX_MODE`: what Ex9E and ExA1 do with a V[x] above 15 (45_timers_keys.md R290, 92_eei_decisions.md D8). -/
inductive KeyIndexMode where
  /-- Use the low four bits. -/
  | mask
  /-- Raise KeyIndexOutOfRange. -/
  | fault
  deriving DecidableEq, Repr

/-- `TIMERS_DURING_WAIT`: whether a step that starts in WaitingForKey decrements the timers (40_cycle.md R142, 92_eei_decisions.md D17). -/
inductive WaitTimers where
  /-- The timers stand still during the wait. -/
  | freeze
  /-- The timers decay in every step. -/
  | decay
  deriving DecidableEq, Repr

/-- OPEN (92_eei_decisions.md D7; log entry 7): which of the five capacities 12, 13, 14, 15, 16 the call stack has. It has no body, so a
claim holds for each of the five. -/
opaque stackDepthChoice : Fin 5

/-- FREE VALUE (92_eei_decisions.md D20, D28; log entry 2): the key snapshot the input collaborator supplies to the step numbered `n`,
where no snapshot was lined up in the state. It has no body: nothing is known of it. -/
opaque freeKeys : Nat → Vector Bool 16

/-- FREE VALUE (92_eei_decisions.md D23; log entry 2): the random byte supplied to the step numbered `n`, where none was lined up in the
state. It has no body: nothing is known of it. -/
opaque freeRand : Nat → Byte

end Sys2Proof.Config
end

