-- ==== Sys2Proof/Machine/State.lean ====
section
/-! DEFINITION. The machine's state as plain data: every row of 10_state.md R20, the model's own fields for the inputs and outputs of a step (40_cycle.md R141), the reasons a step can stop, and the state after reset (10_state.md R37, 70_reset_and_hazards.md R350). -/

namespace Sys2Proof.Machine

/-- `mem` (20_memory.md R60): the bytes that differ from what they were at reset, as (address, byte), addresses strictly rising, each below
4096. An address that is not listed reads as its reset byte (log entry 16). -/
abbrev Memory := List Host.Cell

/-- `fb` (10_state.md R28): 32 rows from top to bottom, each of 64 one-bit pixels. Column 0, the left edge, is a row's most significant
bit (log entry 17). -/
abbrev Framebuffer := Vector (BitVec 64) 32

/-- `keys` (10_state.md R30): one flag per logical key, true while it is held. -/
abbrev Keys := Vector Bool 16

/-- `mode`, the scheduler's state (10_state.md R29). -/
inductive Mode where
  /-- A step executes one instruction. -/
  | running
  /-- A step scans the keys; the index found goes to register `t`. -/
  | waitingForKey (t : Reg)
  deriving DecidableEq, Repr

/-- The kinds of fatal condition (60_exceptions.md R320). -/
inductive FatalKind where
  | unknownOpcode
  | stackUnderflow
  | stackOverflow
  | memoryOutOfRange
  | keyIndexOutOfRange
  deriving DecidableEq, Repr

/-- The numeric code of a kind (60_exceptions.md R320, 92_eei_decisions.md D14). -/
def FatalKind.code : FatalKind → Nat
  | .unknownOpcode => 1
  | .stackUnderflow => 2
  | .stackOverflow => 3
  | .memoryOutOfRange => 4
  | .keyIndexOutOfRange => 5

/-- The fatal record (60_exceptions.md R321). Its code is `kind.code`. -/
structure FatalRecord where
  kind : FatalKind
  /-- The address the faulting instruction was fetched from. -/
  fetchPc : Word
  /-- The fetched word, or none when the fetch itself failed. -/
  word : Option Word
  /-- The value of R320's last column. -/
  info : Nat
  deriving DecidableEq, Repr

/-- `status` (10_state.md R32). -/
inductive Status where
  | ok
  | halted (record : FatalRecord)
  deriving DecidableEq, Repr

/-- The two inputs of a step (40_cycle.md R141): the key snapshot and the random byte. -/
structure StepInput where
  keys : Keys
  rand8 : Byte
  deriving DecidableEq, Repr

/-- The two operations of the renderer (60_exceptions.md R335) as signals of a step. -/
inductive RendererCall where
  /-- `clear_out` is asserted. -/
  | clear
  /-- `present_out` carries this frame. -/
  | present (frame : Framebuffer)
  deriving DecidableEq, Repr

/-- The state of the machine. The first twelve fields are 10_state.md R20's; the last four are the model's own. -/
structure State where
  /-- The 4096 bytes of memory. -/
  mem : Memory
  /-- The general registers V0 to VF. -/
  v : Vector Byte 16
  /-- The index register I. -/
  i : Word
  /-- The program counter. -/
  pc : Word
  /-- The call stack; a push appends at the end (10_state.md R26). -/
  stack : List Word
  /-- The delay timer. -/
  dt : Byte
  /-- The sound timer. -/
  st : Byte
  /-- The framebuffer. -/
  fb : Framebuffer
  /-- The key snapshot of the current step. -/
  keys : Keys
  /-- The scheduler's state. -/
  mode : Mode
  /-- The display-changed flag. -/
  displayChanged : Bool
  /-- Whether a fatal condition has ended the run. -/
  status : Status
  /-- MODEL'S OWN: the random byte of the current step (log entry 4). -/
  rand8 : Byte
  /-- MODEL'S OWN: the inputs lined up for the coming steps, oldest first (log entry 2). -/
  inputs : List StepInput
  /-- MODEL'S OWN: the number of steps taken, the index of the free inputs (log entry 3). -/
  tick : Nat
  /-- MODEL'S OWN: what the step just taken signalled to the renderer, in order (log entry 5). -/
  rendererOut : List RendererCall
  deriving DecidableEq, Repr

/-- Why the machine stops. -/
inductive Fault where
  /-- Raised by `step` alone, when `status` is Halted: "A halted machine takes no further step" (60_exceptions.md R325, 40_cycle.md R148).
  SAFE: the hardware has no step here either. -/
  | halted (record : FatalRecord)
  deriving DecidableEq, Repr

/-- Why an instruction has no meaning. -/
inductive Refusal where
  /-- Raised by an arm of `exec` for an instruction that is not modelled yet. SAFE: the model stops where the hardware goes on. -/
  | notModelled (mnemonic : String)
  deriving DecidableEq, Repr

/-- The machine right after reset (10_state.md R37): registers, stack and timers zero, pc at 0x200, memory as it is before a program is
loaded (nothing differs from its reset byte). The framebuffer, keys, mode, display-changed flag and status are the spec's D19 and D25
(log entry 15); the last four fields are the model's (log entries 2 to 5). -/
def State.reset : State where
  mem := []
  v := Vector.replicate 16 0#8
  i := 0#16
  pc := BitVec.ofNat 16 Config.programStart
  stack := []
  dt := 0#8
  st := 0#8
  fb := Vector.replicate 32 0#64
  keys := Vector.replicate 16 false
  mode := .running
  displayChanged := false
  status := .ok
  rand8 := 0#8
  inputs := []
  tick := 0
  rendererOut := []

end Sys2Proof.Machine
end

