-- ==== Sys2Proof/Machine/Params.lean ====
section
/-! DEFINITION. The values the spec decided for the parameters of 00_scope.md R5 that the machine uses: STACK_DEPTH (open), KEY_INDEX_MODE, TIMERS_DURING_WAIT, FONT_BASE and FONT_DATA. -/

namespace Sys2Proof.Machine

/-- `STACK_DEPTH`, 12 to 16 and not fixed within that range (92_eei_decisions.md D7; log entry 7). -/
def stackDepth : Nat := Config.stackDepthChoice.val + 12

/-- `KEY_INDEX_MODE`, decided `mask` (92_eei_decisions.md D8; log entry 9). -/
def keyIndexMode : Config.KeyIndexMode := .mask

/-- `TIMERS_DURING_WAIT`, decided `freeze` (92_eei_decisions.md D17; log entry 10). -/
def timersDuringWait : Config.WaitTimers := .freeze

/-- `FONT_BASE`, decided 0x000 (92_eei_decisions.md D5; log entry 11). -/
def fontBase : Nat := 0

/-- `FONT_DATA`, glyphs 0 to F, five bytes each (10_state.md R33). PRESUMED: the spec's D6, "from general knowledge, not in source"
(log entry 12). -/
def fontData : List Byte :=
  [0xF0#8, 0x90#8, 0x90#8, 0x90#8, 0xF0#8, 0x20#8, 0x60#8, 0x20#8, 0x20#8, 0x70#8,
   0xF0#8, 0x10#8, 0xF0#8, 0x80#8, 0xF0#8, 0xF0#8, 0x10#8, 0xF0#8, 0x10#8, 0xF0#8] ++
  [0x90#8, 0x90#8, 0xF0#8, 0x10#8, 0x10#8, 0xF0#8, 0x80#8, 0xF0#8, 0x10#8, 0xF0#8,
   0xF0#8, 0x80#8, 0xF0#8, 0x90#8, 0xF0#8, 0xF0#8, 0x10#8, 0x20#8, 0x40#8, 0x40#8] ++
  [0xF0#8, 0x90#8, 0xF0#8, 0x90#8, 0xF0#8, 0xF0#8, 0x90#8, 0xF0#8, 0x10#8, 0xF0#8,
   0xF0#8, 0x90#8, 0xF0#8, 0x90#8, 0x90#8, 0xE0#8, 0x90#8, 0xE0#8, 0x90#8, 0xE0#8] ++
  [0xF0#8, 0x80#8, 0x80#8, 0x80#8, 0xF0#8, 0xE0#8, 0x90#8, 0x90#8, 0x90#8, 0xE0#8,
   0xF0#8, 0x80#8, 0xF0#8, 0x80#8, 0xF0#8, 0xF0#8, 0x80#8, 0xF0#8, 0x80#8, 0x80#8]

/-- The byte at an address after reset and before a program is loaded: the font at `FONT_BASE`, 0 elsewhere (10_state.md R37,
20_memory.md R61). It is what an address that `State.mem` does not list reads as (log entry 16). -/
def resetByte (a : Nat) : Byte :=
  if fontBase ≤ a then fontData.getD (a - fontBase) 0#8 else 0#8

end Sys2Proof.Machine
end

