-- ==== Sys2Proof/Machine/Operands.lean ====
section
/-! DEFINITION. The operand forms (30_encoding.md R93, 43_index_memory.md R240, 44_display.md R272, 45_timers_keys.md R290): addresses and immediates zero-extended, the bounds check of an address range, glyph addresses, key indices, sprite coordinates. -/

namespace Sys2Proof.Machine

/-- `zext_16(nnn)` (30_encoding.md R93). -/
def zextAddr (nnn : BitVec 12) : Word := nnn.setWidth 16

/-- `zext_16` of a byte (00_scope.md R6). -/
def zextByte (b : Byte) : Word := b.setWidth 16

/-- The flag register VF, register 15 (10_state.md R22). -/
def vf : Reg := 15

/-- The lowest address ≥ 4096 among `base, base + 1, …, base + count - 1`, if there is one. The sums are exact naturals (20_memory.md R63);
the address is `max(base, 4096)` (43_index_memory.md R240). -/
def rangeFault (base count : Nat) : Option Nat :=
  if 0 < count ∧ Config.memSize ≤ base + count - 1 then some (max base Config.memSize) else none

/-- The address of the glyph of a value's low nibble, `FONT_BASE + 5 * (v & 0xF)` (43_index_memory.md R243). -/
def glyphAddress (b : Byte) : Word := BitVec.ofNat 16 (fontBase + Config.glyphSize * (b &&& 0xF#8).toNat)

/-- `keyidx` for either value of `KEY_INDEX_MODE` (45_timers_keys.md R290): the key's index, or none where KeyIndexOutOfRange is raised. -/
def keyIndex (m : Config.KeyIndexMode) (b : Byte) : Option (Fin 16) :=
  match m with
  | .mask => some (Fin.ofNat 16 (b &&& 0xF#8).toNat)
  | .fault => if 15 < b.toNat then none else some (Fin.ofNat 16 b.toNat)

/-- The starting column of a sprite, `V[x] mod 64` (44_display.md R272). -/
def startColumn (b : Byte) : Nat := b.toNat % Config.fbWidth

/-- The starting row of a sprite, `V[y] mod 32` (44_display.md R272). -/
def startRow (b : Byte) : Nat := b.toNat % Config.fbHeight

/-- The sprite rows that are drawn, and so read: `min(n, 32 - r0)` (44_display.md R273). -/
def drawnRows (n : BitVec 4) (r0 : Nat) : Nat := min n.toNat (Config.fbHeight - r0)

/-- The sprite bit drawn at column offset `b`, bit `7 - b` of the row's byte: bit 7 is the leftmost pixel (44_display.md R273,
92_eei_decisions.md D36; log entry 36). -/
def spriteBit (row : Byte) (b : Nat) : Bool := row.getLsbD (7 - b)

end Sys2Proof.Machine
end

