-- ==== Sys2Proof/WellFormed.lean ====
section
/-! DEFINITION. Well-formed inputs: instructions, whose operand types already hold every bound of 30_encoding.md R91, and program images (70_reset_and_hazards.md R352). -/

namespace Sys2Proof

/-- Every `Instr` is well-formed: a register number is a `Fin 16`, `n`, `nn` and `nnn` are vectors of 4, 8 and 12 bits, and no row of the
table forbids a value of a field (30_encoding.md R91, R98). There is nothing left to check. -/
abbrev Instr.WellFormed (_ : Instr) : Prop := True

/-- The image fits: `0x200 + L ≤ 4096`, at most 3584 bytes (70_reset_and_hazards.md R352, 60_exceptions.md R330). -/
abbrev imageFits (image : List Byte) : Prop := Config.programStart + image.length ≤ Config.memSize

end Sys2Proof
end

