-- ==== Sys2Proof/Machine/Ops.lean ====
section
/-! DEFINITION. The named operations over memory, registers, the call stack, the timers and the status: the primitives of 00_scope.md R9, the fetch (20_memory.md R66), raising a fatal condition (60_exceptions.md R324), the parts of a step that are no instruction (40_cycle.md R142, R143, R147), and the load port (70_reset_and_hazards.md R352). -/

namespace Sys2Proof.Machine

/-! ## Memory -/

/-- The byte at an address (20_memory.md R70: the most recent write, or the reset value if none). -/
def readByte : Memory → Nat → Byte
  | [], a => resetByte a
  | (b, w) :: rest, a => if a = b then w else readByte rest a

/-- Memory after one byte is written, in canonical form again. -/
def writeByte : Memory → Nat → Byte → Memory
  | [], a, x => if x = resetByte a then [] else [(a, x)]
  | (b, w) :: rest, a, x =>
    if a < b then (if x = resetByte a then (b, w) :: rest else (a, x) :: (b, w) :: rest)
    else if a = b then (if x = resetByte a then rest else (a, x) :: rest)
    else (b, w) :: writeByte rest a x

/-- Every cell stands at `lo` or above, addresses rise strictly and stay below 4096, and no byte equals what its address reads as when
unlisted. -/
def cellsFrom (lo : Nat) : Memory → Bool
  | [] => true
  | (a, x) :: rest => decide (lo ≤ a) && decide (a < Config.memSize) && decide (x ≠ resetByte a) && cellsFrom (a + 1) rest

/-- The canonical form of memory: equal memories are equal lists. -/
def Memory.wf (m : Memory) : Bool := cellsFrom 0 m

/-- `MemRead(addr, 1)` (00_scope.md R9): the byte, or the address that is out of range. -/
def memRead (m : Memory) (a : Nat) : Except Nat Byte :=
  if Config.memSize ≤ a then .error a else .ok (readByte m a)

/-- The writes `MemWrite(a + k, 1, bytes[k])` in ascending order of `k` (20_memory.md R68). The instruction has checked the range before
(20_memory.md R69). -/
def storeBytes (m : Memory) (a : Nat) : List Byte → Memory
  | [] => m
  | x :: rest => storeBytes (writeByte m a x) (a + 1) rest

/-- Fetch: two byte reads at pc and pc + 1, high byte first; an address out of range is answered instead (20_memory.md R66). -/
def fetchWord (m : Memory) (pc : Nat) : Except Nat Word :=
  match memRead m pc with
  | .error a => .error a
  | .ok hi =>
    match memRead m (pc + 1) with
    | .error a => .error a
    | .ok lo => .ok (Word.ofBytes hi lo)

/-! ## One update for each field an instruction writes -/

/-- `V[x]`. -/
def State.getV (s : State) (x : Reg) : Byte := s.v[x]

/-- `V[x] <- b`. No register is hard-wired (10_state.md R21). -/
def State.setV (s : State) (x : Reg) (b : Byte) : State := { s with v := s.v.set x.val b x.isLt }

/-- All sixteen general registers at once. -/
def State.setRegs (s : State) (v : Vector Byte 16) : State := { s with v := v }

/-- `I <- w`. -/
def State.setI (s : State) (w : Word) : State := { s with i := w }

/-- `pc <- w`. -/
def State.setPc (s : State) (w : Word) : State := { s with pc := w }

/-- The call stack becomes `l`. -/
def State.setStack (s : State) (l : List Word) : State := { s with stack := l }

/-- `DT <- b`. -/
def State.setDt (s : State) (b : Byte) : State := { s with dt := b }

/-- `ST <- b`. -/
def State.setSt (s : State) (b : Byte) : State := { s with st := b }

/-- Memory becomes `m`. -/
def State.setMem (s : State) (m : Memory) : State := { s with mem := m }

/-- The framebuffer becomes `fb`, and `display_changed <- true` (44_display.md R270). -/
def State.setFb (s : State) (fb : Framebuffer) : State := { s with fb := fb, displayChanged := true }

/-- `mode <- m`. -/
def State.setMode (s : State) (m : Mode) : State := { s with mode := m }

/-- A signal to the renderer, after those the step has already made. -/
def State.signal (s : State) (c : RendererCall) : State := { s with rendererOut := s.rendererOut ++ [c] }

/-! ## Shared parts of instructions -/

/-- A skip: `pc <- pc + 2` when `c` holds, whatever the skipped word is (41_control.md R170, 92_eei_decisions.md D24; log entry 29). -/
def State.skipIf (s : State) (c : Bool) : State := s.setPc (if c then s.pc + 2#16 else s.pc)

/-- The result first, the flag last (42_alu.md R208): `V[x] <- r`, then `V[15] <- f`. -/
def State.setResultFlag (s : State) (x : Reg) (r f : Byte) : State := (s.setV x r).setV vf f

/-- `push(w)` onto a stack that is not at capacity (10_state.md R26). -/
def State.push (s : State) (w : Word) : State := s.setStack (s.stack ++ [w])

/-! ## Fatal conditions -/

/-- Status becomes Halted and the step gives no signal to the renderer (40_cycle.md R149, 92_eei_decisions.md D32). -/
def State.halt (s : State) (r : FatalRecord) : State := { s with status := .halted r, rendererOut := [] }

/-- `raise Fatal(kind, info)` by the instruction `i` (60_exceptions.md R323, R324), called before any effect of `i`. pc, which holds
fetch_pc + 2 while `i` executes (40_cycle.md R145), is fetch_pc again, and the record names fetch_pc and the word of `i`. -/
def State.raise (s : State) (i : Instr) (kind : FatalKind) (info : Nat) : State :=
  (s.setPc (s.pc - 2#16)).halt { kind := kind, fetchPc := s.pc - 2#16, word := some (encode i), info := info }

/-- A fatal condition of the fetch: an address out of range, no word recorded (40_cycle.md R144). -/
def State.raiseFetch (s : State) (a : Nat) : State :=
  s.halt { kind := .memoryOutOfRange, fetchPc := s.pc, word := none, info := a }

/-- A fatal condition of the decode: the word is Unknown (40_cycle.md R145, 60_exceptions.md R320). -/
def State.raiseUnknown (s : State) (w : Word) : State :=
  s.halt { kind := .unknownOpcode, fetchPc := s.pc, word := some w, info := w.toNat }

/-! ## The parts of a step that are no instruction -/

/-- The inputs of the step that starts in `s`: the oldest lined up, else free values (40_cycle.md R141; log entry 2). -/
def State.nextInput (s : State) : StepInput := s.inputs.headD { keys := Config.freeKeys s.tick, rand8 := Config.freeRand s.tick }

/-- The start of a step: the key snapshot replaces `keys` wholesale, the random byte is at hand, no output is asserted yet
(40_cycle.md R141, R149). -/
def State.beginStep (s : State) : State :=
  { s with keys := s.nextInput.keys, rand8 := s.nextInput.rand8, inputs := s.inputs.tail, tick := s.tick + 1, rendererOut := [] }

/-- `sat_dec`: a timer counts down by one and stays at zero (40_cycle.md R142). -/
def satDec (b : Byte) : Byte := if b = 0#8 then 0#8 else b - 1#8

/-- Timer decay, both timers (40_cycle.md R142). -/
def State.decay (s : State) : State := (s.setDt (satDec s.dt)).setSt (satDec s.st)

/-- What decay there is in a step that starts in WaitingForKey, for either value of `TIMERS_DURING_WAIT` (40_cycle.md R142). -/
def State.decayInWait (p : Config.WaitTimers) (s : State) : State :=
  match p with
  | .freeze => s
  | .decay => s.decay

/-- The lowest key that is held, if any is (40_cycle.md R143). -/
def lowestKey (keys : Keys) : Option (Fin 16) := (List.finRange 16).find? (fun k => keys[k])

/-- The scan of a step that starts in `WaitingForKey(t)` (40_cycle.md R143). -/
def State.scanKeys (s : State) (t : Reg) : State :=
  match lowestKey s.keys with
  | some k => (s.setV t (BitVec.ofNat 8 k.val)).setMode .running
  | none => s

/-- `pc <- pc + 2`, before the instruction executes (40_cycle.md R145). -/
def State.advancePc (s : State) : State := s.setPc (s.pc + 2#16)

/-- The end of a step: the frame is presented and the flag cleared if the display changed; a step that raised a fatal condition presents
nothing (40_cycle.md R147, R149). -/
def State.endStep (s : State) : State :=
  match s.status with
  | .halted _ => s
  | .ok => if s.displayChanged then { s.signal (.present s.fb) with displayChanged := false } else s

/-! ## Outputs that are views of the state -/

/-- `sound_timer_out`, the value of ST after a step (60_exceptions.md R333). -/
def State.soundTimerOut (s : State) : Byte := s.st

/-- `outcome`: none is Ok, a record is Fatal(record) (60_exceptions.md R324, R334). -/
def State.outcome (s : State) : Option FatalRecord :=
  match s.status with
  | .ok => none
  | .halted r => some r

/-- `clear_out` (60_exceptions.md R334). -/
def State.clearOut (s : State) : Bool := s.rendererOut.contains .clear

/-- `present_out`: the frame the step presented, if it did (60_exceptions.md R334). -/
def State.presentOut (s : State) : Option Framebuffer :=
  s.rendererOut.findSome? (fun c => match c with
    | .clear => none
    | .present f => some f)

/-! ## The load port -/

/-- The loader: the image is copied byte for byte from 0x200 on; none where it does not fit, and then there is no machine to step
(70_reset_and_hazards.md R352, 92_eei_decisions.md D29). -/
def loadImage (image : List Byte) (s : State) : Option State :=
  if imageFits image then some (s.setMem (storeBytes s.mem Config.programStart image)) else none

/-- Reset, then load (70_reset_and_hazards.md R351). -/
def boot (image : List Byte) : Option State := loadImage image State.reset

/-- The state with `w` stored where the next step fetches, so that the step runs it: mode Running and status Ok, pc kept where two bytes
can be fetched from it and else at 0x200 (log entry 38). -/
def State.placeWord (s : State) (w : Word) : State :=
  let pc := if s.pc.toNat + 1 < Config.memSize then s.pc else BitVec.ofNat 16 Config.programStart
  { s with mem := storeBytes s.mem pc.toNat [w.hi, w.lo], pc := pc, mode := .running, status := .ok }

end Sys2Proof.Machine
end

