-- ==== Sys2Proof/Machine/Alu.lean ====
section
/-! DEFINITION. Register loads, arithmetic, logic, shifts and random (42_alu.md). Results wrap modulo 256 (42_alu.md R200); a flag is written after the result (42_alu.md R208). -/

namespace Sys2Proof.Machine

/-- 6xnn `LD Vx, nn` (42_alu.md R202). -/
def execLdImm (x : Reg) (nn : Byte) (s : State) : Host.Outcome State Fault Refusal :=
  .next (s.setV x nn)

/-- 7xnn `ADD Vx, nn` (42_alu.md R203): no flag. -/
def execAddImm (x : Reg) (nn : Byte) (s : State) : Host.Outcome State Fault Refusal :=
  .next (s.setV x (s.getV x + nn))

/-- 8xy0 `LD Vx, Vy` (42_alu.md R204). -/
def execLdReg (x y : Reg) (s : State) : Host.Outcome State Fault Refusal :=
  .next (s.setV x (s.getV y))

/-- 8xy1 `OR Vx, Vy` (42_alu.md R205): VF is unchanged unless x = 15 (92_eei_decisions.md D10; log entry 19). -/
def execOrReg (x y : Reg) (s : State) : Host.Outcome State Fault Refusal :=
  .next (s.setV x (s.getV x ||| s.getV y))

/-- 8xy2 `AND Vx, Vy` (42_alu.md R206; log entry 19). -/
def execAndReg (x y : Reg) (s : State) : Host.Outcome State Fault Refusal :=
  .next (s.setV x (s.getV x &&& s.getV y))

/-- 8xy3 `XOR Vx, Vy` (42_alu.md R207; log entry 19). -/
def execXorReg (x y : Reg) (s : State) : Host.Outcome State Fault Refusal :=
  .next (s.setV x (s.getV x ^^^ s.getV y))

/-- 8xy4 `ADD Vx, Vy` (42_alu.md R209): VF is the carry. -/
def execAddReg (x y : Reg) (s : State) : Host.Outcome State Fault Refusal :=
  .next (s.setResultFlag x (s.getV x + s.getV y) (carryFlag (s.getV x) (s.getV y)))

/-- 8xy5 `SUB Vx, Vy` (42_alu.md R210): VF is 1 where no borrow occurs. -/
def execSub (x y : Reg) (s : State) : Host.Outcome State Fault Refusal :=
  .next (s.setResultFlag x (s.getV x - s.getV y) (noBorrowFlag (s.getV x) (s.getV y)))

/-- 8xy6 `SHR Vx` (42_alu.md R211): VF is the bit shifted out; V[y] is not read. -/
def execShr (x _y : Reg) (s : State) : Host.Outcome State Fault Refusal :=
  .next (s.setResultFlag x (s.getV x >>> 1) (shiftRightOut (s.getV x)))

/-- 8xy7 `SUBN Vx, Vy` (42_alu.md R212): V[y] minus V[x]. PRESUMED, the spec's D37 (log entry 37). -/
def execSubn (x y : Reg) (s : State) : Host.Outcome State Fault Refusal :=
  .next (s.setResultFlag x (s.getV y - s.getV x) (noBorrowFlag (s.getV y) (s.getV x)))

/-- 8xyE `SHL Vx` (42_alu.md R213): VF is the bit shifted out; V[y] is not read. -/
def execShl (x _y : Reg) (s : State) : Host.Outcome State Fault Refusal :=
  .next (s.setResultFlag x (s.getV x <<< 1) (shiftLeftOut (s.getV x)))

/-- Cxnn `RND Vx, nn` (42_alu.md R214): the step's random byte, masked. -/
def execRnd (x : Reg) (nn : Byte) (s : State) : Host.Outcome State Fault Refusal :=
  .next (s.setV x (s.rand8 &&& nn))

end Sys2Proof.Machine
end

