-- ==== Sys2Proof/Machine/Control.lean ====
section
/-! DEFINITION. Control transfer (41_control.md): RET, JP, CALL, the six skips on values, JP V0. Each runs with pc at fetch_pc + 2. -/

namespace Sys2Proof.Machine

/-- 00EE `RET` (41_control.md R171): pop into pc; StackUnderflow on an empty stack. -/
def execRet (s : State) : Host.Outcome State Fault Refusal :=
  match s.stack.getLast? with
  | none => .next (s.raise .ret .stackUnderflow 0)
  | some w => .next ((s.setStack s.stack.dropLast).setPc w)

/-- 1nnn `JP nnn` (41_control.md R172). -/
def execJp (nnn : BitVec 12) (s : State) : Host.Outcome State Fault Refusal :=
  .next (s.setPc (zextAddr nnn))

/-- 2nnn `CALL nnn` (41_control.md R173): push pc, which is fetch_pc + 2, and jump; StackOverflow at capacity. A stack above its capacity,
which no run reaches, counts as at capacity (log entry 39). -/
def execCall (nnn : BitVec 12) (s : State) : Host.Outcome State Fault Refusal :=
  if stackDepth ≤ s.stack.length then .next (s.raise (.call nnn) .stackOverflow stackDepth)
  else .next ((s.push s.pc).setPc (zextAddr nnn))

/-- 3xnn `SE Vx, nn` (41_control.md R174; all 8 bits, 30_encoding.md R102). -/
def execSeImm (x : Reg) (nn : Byte) (s : State) : Host.Outcome State Fault Refusal :=
  .next (s.skipIf (decide (s.getV x = nn)))

/-- 4xnn `SNE Vx, nn` (41_control.md R175; all 8 bits, 30_encoding.md R102). -/
def execSneImm (x : Reg) (nn : Byte) (s : State) : Host.Outcome State Fault Refusal :=
  .next (s.skipIf (decide (s.getV x ≠ nn)))

/-- 5xy0 `SE Vx, Vy` (41_control.md R176). -/
def execSeReg (x y : Reg) (s : State) : Host.Outcome State Fault Refusal :=
  .next (s.skipIf (decide (s.getV x = s.getV y)))

/-- 9xy0 `SNE Vx, Vy` (41_control.md R177). -/
def execSneReg (x y : Reg) (s : State) : Host.Outcome State Fault Refusal :=
  .next (s.skipIf (decide (s.getV x ≠ s.getV y)))

/-- Bnnn `JP V0, nnn` (41_control.md R178): the exact sum, at most 0x10FE (92_eei_decisions.md D30; log entry 33). -/
def execJpV0 (nnn : BitVec 12) (s : State) : Host.Outcome State Fault Refusal :=
  .next (s.setPc (zextAddr nnn + zextByte (s.getV 0)))

end Sys2Proof.Machine
end

