-- ==== Sys2Proof/Machine/Display.lean ====
section
/-! DEFINITION. The framebuffer controller (44_display.md): the pixel at a row and column, the full clear, and the XOR blit with its collision flag, written as the loops of 44_display.md R273. -/

namespace Sys2Proof.Machine

/-- `fb[r][c]` (10_state.md R28): column 0 is a row's most significant bit (log entry 17). No pixel lies outside the grid. -/
def pixel (fb : Framebuffer) (r c : Nat) : Bool := (fb.getD r 0#64).getMsbD c

/-- The framebuffer with the pixel at row `r`, column `c < 64` inverted (no change where there is no row `r`). -/
def flipPixel (fb : Framebuffer) (r c : Nat) : Framebuffer :=
  fb.setIfInBounds r (fb.getD r 0#64 ^^^ BitVec.twoPow 64 (Config.fbWidth - 1 - c))

/-- All pixels 0 (44_display.md R271). -/
def clearedFb : Framebuffer := Vector.replicate 32 0#64

/-- A blit under way: the framebuffer, and whether a drawn 1-bit has met a pixel that was 1, which is sticky (44_display.md R274). -/
structure Blit where
  fb : Framebuffer
  hit : Bool
  deriving DecidableEq, Repr

/-- One sprite bit at one pixel inside the grid: the collision test on the old pixel, then `old XOR bit` (44_display.md R273). -/
def Blit.drawBit (p : Blit) (r c : Nat) (bit : Bool) : Blit :=
  if bit then { fb := flipPixel p.fb r c, hit := p.hit || pixel p.fb r c } else p

/-- One sprite row: its 8 bits from the left, those past the right edge not drawn (44_display.md R272, R273). -/
def Blit.drawRow (p : Blit) (r c0 : Nat) (row : Byte) : Blit :=
  (List.range 8).foldl (fun q b => if c0 + b < Config.fbWidth then q.drawBit r (c0 + b) (spriteBit row b) else q) p

/-- The first `rows` sprite rows, top first, each one byte of memory from `a` on (44_display.md R273). -/
def Blit.drawRows (p : Blit) (m : Memory) (a r0 c0 rows : Nat) : Blit :=
  (List.range rows).foldl (fun q r => q.drawRow (r0 + r) c0 (readByte m (a + r))) p

/-- 00E0 `CLS` (44_display.md R271): every pixel 0, display changed, the clear strobe asserted. -/
def execCls (s : State) : Host.Outcome State Fault Refusal :=
  .next ((s.setFb clearedFb).signal .clear)

/-- Dxyn `DRW Vx, Vy, n` (44_display.md R273). Start column and row are read before VF is reset; the range check covers the rows that are
drawn and comes before any effect; VF is 1 iff a drawn 1-bit met a pixel that was 1. -/
def execDrw (x y : Reg) (n : BitVec 4) (s : State) : Host.Outcome State Fault Refusal :=
  let c0 := startColumn (s.getV x)
  let r0 := startRow (s.getV y)
  let rows := drawnRows n r0
  match rangeFault s.i.toNat rows with
  | some a => .next (s.raise (.drw x y n) .memoryOutOfRange a)
  | none =>
    let p := Blit.drawRows { fb := s.fb, hit := false } s.mem s.i.toNat r0 c0 rows
    .next ((s.setV vf (flagByte p.hit)).setFb p.fb)

end Sys2Proof.Machine
end

