-- ==== Sys2Proof/Machine/IndexMemory.lean ====
section
/-! DEFINITION. The index register and the memory instructions (43_index_memory.md). An access range is checked before any write (20_memory.md R69); I is never updated by an access (43_index_memory.md R240, 92_eei_decisions.md D9; log entry 18). -/

namespace Sys2Proof.Machine

/-- Annn `LD I, nnn` (43_index_memory.md R241). -/
def execLdI (nnn : BitVec 12) (s : State) : Host.Outcome State Fault Refusal :=
  .next (s.setI (zextAddr nnn))

/-- Fx1E `ADD I, Vx` (43_index_memory.md R242): modulo 65536, VF unchanged (92_eei_decisions.md D11; log entry 20). -/
def execAddI (x : Reg) (s : State) : Host.Outcome State Fault Refusal :=
  .next (s.setI (s.i + zextByte (s.getV x)))

/-- Fx29 `LD F, Vx` (43_index_memory.md R243, 90_conflicts.md C2): an assignment, not an addition. -/
def execLdF (x : Reg) (s : State) : Host.Outcome State Fault Refusal :=
  .next (s.setI (glyphAddress (s.getV x)))

/-- The hundreds, tens and units of a byte (43_index_memory.md R244). -/
def bcdDigits (b : Byte) : List Byte :=
  [BitVec.ofNat 8 (b.toNat / 100), BitVec.ofNat 8 (b.toNat / 10 % 10), BitVec.ofNat 8 (b.toNat % 10)]

/-- Fx33 `LD B, Vx` (43_index_memory.md R244). -/
def execLdB (x : Reg) (s : State) : Host.Outcome State Fault Refusal :=
  match rangeFault s.i.toNat 3 with
  | some a => .next (s.raise (.ldB x) .memoryOutOfRange a)
  | none => .next (s.setMem (storeBytes s.mem s.i.toNat (bcdDigits (s.getV x))))

/-- Fx55 `LD [I], Vx` (43_index_memory.md R245): V0 to Vx, ascending. -/
def execLdMemX (x : Reg) (s : State) : Host.Outcome State Fault Refusal :=
  match rangeFault s.i.toNat (x.val + 1) with
  | some a => .next (s.raise (.ldMemX x) .memoryOutOfRange a)
  | none => .next (s.setMem (storeBytes s.mem s.i.toNat (s.v.toList.take (x.val + 1))))

/-- The registers after V0 to Vx are loaded from `a` on; those above x are kept (43_index_memory.md R246). -/
def loadRegs (m : Memory) (a : Nat) (x : Reg) (v : Vector Byte 16) : Vector Byte 16 :=
  Vector.ofFn (fun k : Fin 16 => if k ≤ x then readByte m (a + k.val) else v[k])

/-- Fx65 `LD Vx, [I]` (43_index_memory.md R246). -/
def execLdXMem (x : Reg) (s : State) : Host.Outcome State Fault Refusal :=
  match rangeFault s.i.toNat (x.val + 1) with
  | some a => .next (s.raise (.ldXMem x) .memoryOutOfRange a)
  | none => .next (s.setRegs (loadRegs s.mem s.i.toNat x s.v))

end Sys2Proof.Machine
end

