-- ==== Sys2Proof/Machine/TimersKeys.lean ====
section
/-! DEFINITION. Timers and keypad (45_timers_keys.md): the two skips on keys for either KEY_INDEX_MODE, the timer moves, and entering the key wait. -/

namespace Sys2Proof.Machine

/-- A skip taken when the key that `V[x]` names is in the state `held`; KeyIndexOutOfRange where the mode gives no index
(45_timers_keys.md R290, R291, R292). -/
def skipOnKey (m : Config.KeyIndexMode) (held : Bool) (i : Instr) (x : Reg) (s : State) : State :=
  match keyIndex m (s.getV x) with
  | none => s.raise i .keyIndexOutOfRange (s.getV x).toNat
  | some k => s.skipIf (s.keys[k] == held)

/-- Ex9E `SKP Vx` (45_timers_keys.md R291). -/
def execSkp (x : Reg) (s : State) : Host.Outcome State Fault Refusal :=
  .next (skipOnKey keyIndexMode true (.skp x) x s)

/-- ExA1 `SKNP Vx` (45_timers_keys.md R292). -/
def execSknp (x : Reg) (s : State) : Host.Outcome State Fault Refusal :=
  .next (skipOnKey keyIndexMode false (.sknp x) x s)

/-- Fx07 `LD Vx, DT` (45_timers_keys.md R293): DT after this step's decay. -/
def execLdXDt (x : Reg) (s : State) : Host.Outcome State Fault Refusal :=
  .next (s.setV x s.dt)

/-- Fx0A `LD Vx, K` (45_timers_keys.md R296): the key's index is written later, by the step that ends the wait. -/
def execLdXK (x : Reg) (s : State) : Host.Outcome State Fault Refusal :=
  .next (s.setMode (.waitingForKey x))

/-- Fx15 `LD DT, Vx` (45_timers_keys.md R294). -/
def execLdDtX (x : Reg) (s : State) : Host.Outcome State Fault Refusal :=
  .next (s.setDt (s.getV x))

/-- Fx18 `LD ST, Vx` (45_timers_keys.md R295). -/
def execLdStX (x : Reg) (s : State) : Host.Outcome State Fault Refusal :=
  .next (s.setSt (s.getV x))

end Sys2Proof.Machine
end

