-- ==== Sys2Proof/Machine/Cycle.lean ====
section
/-! DEFINITION. The whole step in the order of 40_cycle.md R149: inputs, timers or key scan, fetch, decode, execute, present. -/

namespace Sys2Proof.Machine

/-- A step that starts in WaitingForKey(t): no instruction (40_cycle.md R143). -/
def waitCycle (t : Reg) (s : State) : State := ((s.decayInWait timersDuringWait).scanKeys t).endStep

/-- A step that starts in Running, after the inputs are taken (40_cycle.md R142, R144, R145, R147). -/
def runCycle (s : State) : Host.Outcome State Fault Refusal :=
  let s1 := s.decay
  match fetchWord s1.mem s1.pc.toNat with
  | .error a => .next (s1.raiseFetch a)
  | .ok w =>
    match decode w with
    | .unknown u => .next (s1.raiseUnknown u)
    | .known i =>
      match exec i s1.advancePc with
      | .next t => .next t.endStep
      | .fault f => .fault f
      | .refused r => .refused r

/-- One step (40_cycle.md R149). A halted machine has none (40_cycle.md R148). -/
def cycle (s : State) : Host.Outcome State Fault Refusal :=
  match s.status with
  | .halted r => .fault (.halted r)
  | .ok =>
    match s.mode with
    | .waitingForKey t => .next (waitCycle t s.beginStep)
    | .running => runCycle s.beginStep

end Sys2Proof.Machine
end

