-- ==== Sys2Proof/Machine/Step.lean ====
section
/-! DEFINITION. The machine's step (40_cycle.md R140), and placing an instruction where the next step fetches. -/

namespace Sys2Proof.Machine

/-- "advance one cycle" (40_cycle.md R140, R149). -/
def step (s : State) : Host.Outcome State Fault Refusal := cycle s

/-- `s` with the instruction whose bits are `w` stored where `step` fetches its next instruction (log entry 38). -/
def State.withFetchWord (s : State) (nbits w : Nat) : State := s.placeWord (tableWord nbits w)

end Sys2Proof.Machine
end

