-- ==== Sys2Proof/Safety.lean ====
section
/-! DEFINITION. What claims speak of: the invariant that holds between steps, an accurate fatal record, a safe run, and the pixel a sprite lights. -/

namespace Sys2Proof.Machine

/-- A fatal record that is as 60_exceptions.md R320 and R321 describe its kind: the word that was fetched and the information recorded. -/
def FatalRecord.Accurate (r : FatalRecord) : Prop :=
  match r.kind with
  | .unknownOpcode => ∃ w, r.word = some w ∧ decode w = .unknown w ∧ r.info = w.toNat
  | .stackUnderflow => r.word = some 0x00EE#16 ∧ r.info = 0
  | .stackOverflow => ∃ w nnn, r.word = some w ∧ decode w = .known (.call nnn) ∧ r.info = stackDepth
  | .memoryOutOfRange =>
    4096 ≤ r.info ∧
      (match r.word with
      | none => 0xFFF ≤ r.fetchPc.toNat ∧ r.info = max r.fetchPc.toNat 4096
      | some w => ∃ x y n, decode w = .known (.drw x y n) ∨ decode w = .known (.ldB x) ∨ decode w = .known (.ldMemX x) ∨
          decode w = .known (.ldXMem x))
  | .keyIndexOutOfRange =>
    keyIndexMode = .fault ∧ 15 < r.info ∧ r.info < 256 ∧
      ∃ w x, r.word = some w ∧ (decode w = .known (.skp x) ∨ decode w = .known (.sknp x))

/-- What holds between steps. -/
structure State.Inv (s : State) : Prop where
  /-- Memory is in canonical form, no cell at or above 4096 (20_memory.md R60). -/
  memCanonical : Memory.wf s.mem = true
  /-- The call stack holds at most STACK_DEPTH entries (10_state.md R20, R26). -/
  stackBounded : s.stack.length ≤ stackDepth
  /-- A return address is at most 0x1000 (10_state.md R25). -/
  stackEntries : ∀ w ∈ s.stack, w.toNat ≤ 0x1000
  /-- pc never exceeds 0x10FE (10_state.md R25). -/
  pcBounded : s.pc.toNat ≤ 0x10FE
  /-- Between invocations the display-changed flag is false (10_state.md R31). -/
  displayPresented : s.displayChanged = false
  /-- A halted machine's record is accurate (60_exceptions.md R320, R321). -/
  recordAccurate : ∀ r, s.status = .halted r → r.Accurate

/-- A safe run: `n` steps are taken from `s` and none raises a fatal condition ("a claim about a program should take no fatal raised as a
premise", 60_exceptions.md R323). -/
def RunsOk (n : Nat) (s : State) : Prop := ∃ t, Host.Core.run Sys2Proof.core n s = .next t ∧ t.status = .ok

/-- The sprite whose `n` rows of 8 pixels stand in memory from `a` on, placed with its top left pixel at row `r0`, column `c0`, has a 1 at
row `r`, column `c`; bit 7 of a row's byte is its leftmost pixel (44_display.md R272, R273). -/
def spriteLit (m : Memory) (a r0 c0 n r c : Nat) : Bool :=
  decide (r0 ≤ r ∧ r < r0 + n ∧ c0 ≤ c ∧ c < c0 + 8) && (readByte m (a + (r - r0))).getLsbD (7 - (c - c0))

end Sys2Proof.Machine
end

