-- ==== Sys2Proof/Certificates/Slice0/Obligations.lean ====
section
/-! DEFINITION. The statements for the provers, from the numbered rules of spec/. A statement about an instruction concludes that exec answers a next state, says what that state holds, and says by an equation of the form t = s with some fields replaced that nothing else changed. -/

open Sys2Proof Sys2Proof.Machine

/-! ## Encoding -/

/-- Decoding the word of any instruction gives that instruction, every operand at every value (30_encoding.md, sections 1 and 2; the
patterns are the spec's D1, log entry 13). -/
def Obligations.DecodeOfEncodeIsTheInstruction : Prop :=
  ∀ i : Instr, i.WellFormed → decode (encode i) = .known i

/-- The other direction: the word of a decoded instruction is the word it was decoded from, but for the low nibble of groups 0x5 and 0x9,
which is not decoded (30_encoding.md, sections 2 and 3; D1, D3, log entries 8 and 13). -/
def Obligations.EncodeOfDecodeIsTheWord : Prop :=
  ∀ (w : Word) (i : Instr), decode w = .known i →
    if w.toNat / 4096 = 5 ∨ w.toNat / 4096 = 9 then (encode i).toNat = w.toNat / 16 * 16 else encode i = w

/-- The decoder is the opcode table: a word decodes to an instruction of a row exactly when it matches the row's mask and value
(30_encoding.md section 2, spec/opcode_table.json; D1, D3, log entries 8 and 13). -/
def Obligations.DecoderAgreesWithOpcodeTable : Prop :=
  ∀ w : Word,
    (∀ i, decode w = .known i → ∃ row ∈ opcodeTable, row.mnemonic = mnemonic i ∧ w &&& row.mask = row.value) ∧
    (∀ row ∈ opcodeTable, w &&& row.mask = row.value → ∃ i, decode w = .known i ∧ mnemonic i = row.mnemonic)

/-- No word matches two rows of the opcode table, so the order in which a decoder tests them does not matter (30_encoding.md section 3). -/
def Obligations.NoWordMatchesTwoRows : Prop :=
  ∀ (w : Word), ∀ p ∈ opcodeTable, ∀ q ∈ opcodeTable, w &&& p.mask = p.value → w &&& q.mask = q.value → p = q

/-- The words that decode to Unknown, carrying themselves, for either value of LENIENT_5_9 (30_encoding.md section 3; D2, D3, log entries
8 and 14). -/
def Obligations.UnknownWordsAreExactlyThese : Prop :=
  ∀ (lenient : Bool) (w u : Word), decodeWith lenient w = .unknown u ↔ u = w ∧
    ((w.toNat / 4096 = 0x0 ∧ w.toNat ≠ 0x00E0 ∧ w.toNat ≠ 0x00EE) ∨
     (lenient = false ∧ (w.toNat / 4096 = 0x5 ∨ w.toNat / 4096 = 0x9) ∧ w.toNat % 16 ≠ 0) ∨
     (w.toNat / 4096 = 0x8 ∧ w.toNat % 16 ∈ [0x8, 0x9, 0xA, 0xB, 0xC, 0xD, 0xF]) ∨
     (w.toNat / 4096 = 0xE ∧ w.toNat % 256 ∉ [0x9E, 0xA1]) ∨
     (w.toNat / 4096 = 0xF ∧ w.toNat % 256 ∉ [0x07, 0x0A, 0x15, 0x18, 0x1E, 0x29, 0x33, 0x55, 0x65]))

/-- A few words of 95_test_vectors.md section 2.1, one of each family, and one Unknown (D1, log entry 13). -/
def Obligations.SampleWordsDecodeAsTheSpecLists : Prop :=
  decode 0x00E0#16 = .known .cls ∧ decode 0x1ABC#16 = .known (.jp 0xABC#12) ∧ decode 0x4A5B#16 = .known (.sneImm 10 0x5B#8) ∧
  decode 0x8AB7#16 = .known (.subn 10 11) ∧ decode 0xD12F#16 = .known (.drw 1 2 15#4) ∧ decode 0xE1A1#16 = .known (.sknp 1) ∧
  decode 0xF165#16 = .known (.ldXMem 1) ∧ decode 0x0123#16 = .unknown 0x0123#16

/-! ## The step -/

/-- The fetch reads two bytes, the high one first; at 0xFFF it fails on the second byte, from 0x1000 on at the first (20_memory.md R66). -/
def Obligations.FetchReadsTwoBytesHighFirst : Prop :=
  ∀ (m : Memory) (pc : Nat),
    (pc + 1 < 4096 → ∃ w : Word, fetchWord m pc = .ok w ∧ w.toNat = 256 * (readByte m pc).toNat + (readByte m (pc + 1)).toNat) ∧
    (pc = 0xFFF → fetchWord m pc = .error 0x1000) ∧
    (0x1000 ≤ pc → fetchWord m pc = .error pc)

/-- A step whose fetched word is an instruction is exec of that instruction, on the state with the step's inputs taken, the timers decayed
and pc advanced by 2, and then the end of the step (40_cycle.md, the step of rule R149). -/
def Obligations.StepRunsTheDecodedInstruction : Prop :=
  ∀ (s : State) (w : Word) (i : Instr), s.status = .ok → s.mode = .running → fetchWord s.mem s.pc.toNat = .ok w → decode w = .known i →
    i.WellFormed →
    ∀ o, exec i { s with keys := s.nextInput.keys, rand8 := s.nextInput.rand8, inputs := s.inputs.tail, tick := s.tick + 1,
                         rendererOut := [], dt := satDec s.dt, st := satDec s.st, pc := s.pc + 2#16 } = o →
      (∀ t, o = .next t → step s = .next t.endStep) ∧ (∀ f, o = .fault f → step s = .fault f) ∧
      (∀ r, o = .refused r → step s = .refused r)

/-- A step that fetches an Unknown word raises UnknownOpcode: the record holds the fetch address and the word, and nothing but the inputs
and the timers has moved (40_cycle.md, the steps of R145 and R149; D13, D14, log entries 22 and 23). -/
def Obligations.StepOnUnknownWordHalts : Prop :=
  ∀ (s : State) (w : Word), s.status = .ok → s.mode = .running → fetchWord s.mem s.pc.toNat = .ok w → decode w = .unknown w →
    ∃ t, step s = .next t ∧ t.status = .halted ⟨.unknownOpcode, s.pc, some w, w.toNat⟩ ∧
      t.dt.toNat = s.dt.toNat - 1 ∧ t.st.toNat = s.st.toNat - 1 ∧
      t = { s with keys := t.keys, rand8 := t.rand8, inputs := t.inputs, tick := t.tick, rendererOut := [], dt := t.dt, st := t.st,
                   status := t.status }

/-- A step that starts in Running with pc at 0xFFF or above raises MemoryOutOfRange: the record holds the fetch address, no word, and the
lowest address out of range (40_cycle.md R144, 20_memory.md R66). -/
def Obligations.StepWithFetchOutOfRangeHalts : Prop :=
  ∀ s : State, s.status = .ok → s.mode = .running → 0xFFF ≤ s.pc.toNat →
    ∃ t, step s = .next t ∧ t.status = .halted ⟨.memoryOutOfRange, s.pc, none, max s.pc.toNat 0x1000⟩

/-- A step that raises a fatal condition keeps its timer decay and nothing of its instruction; the record names the fetch address and the
fetched word, or none where the fetch failed (40_cycle.md R149's raise clause, 60_exceptions.md section 1; D13, D14, D32, log entries 22,
23 and 35). -/
def Obligations.FaultingStepKeepsOnlyTimerDecay : Prop :=
  ∀ (s t : State) (r : FatalRecord), step s = .next t → t.status = .halted r →
    r.fetchPc = s.pc ∧ (∀ w, fetchWord s.mem s.pc.toNat = .ok w → r.word = some w) ∧
    (∀ a, fetchWord s.mem s.pc.toNat = .error a → r.word = none ∧ r.kind = .memoryOutOfRange ∧ r.info = a) ∧
    t.dt.toNat = s.dt.toNat - 1 ∧ t.st.toNat = s.st.toNat - 1 ∧
    t = { s with keys := t.keys, rand8 := t.rand8, inputs := t.inputs, tick := t.tick, rendererOut := [], dt := t.dt, st := t.st,
                 status := .halted r }

/-- A halted machine takes no further step (40_cycle.md section of R148, 60_exceptions.md section 1; D25, log entry 1). -/
def Obligations.HaltedMachineHasNoStep : Prop :=
  ∀ (s : State) (r : FatalRecord), s.status = .halted r → step s = .fault (.halted r)

/-- Every instruction is handled in every state, and a machine that is not halted has a step (40_cycle.md sections of R146 and R149;
log entry 1). -/
def Obligations.EveryInstructionAndStepAnswersNext : Prop :=
  (∀ (i : Instr) (s : State), ∃ t, exec i s = .next t) ∧ (∀ s : State, s.status = .ok → ∃ t, step s = .next t)

/-- A step that starts in WaitingForKey(k) executes no instruction: the lowest key held goes to V[k] and the machine is Running again; with
no key held it keeps waiting. The timers stand still (40_cycle.md R143's section; D16, D17, log entries 10 and 25). -/
def Obligations.WaitStepScansTheKeys : Prop :=
  ∀ (s : State) (k : Reg), s.status = .ok → s.mode = .waitingForKey k →
    ∃ t, step s = .next t ∧
      t = { s with keys := s.nextInput.keys, rand8 := s.nextInput.rand8, inputs := s.inputs.tail, tick := s.tick + 1,
                   rendererOut := t.rendererOut, displayChanged := t.displayChanged, v := t.v, mode := t.mode } ∧
      ((∀ j : Fin 16, t.keys[j] = false) → t.v = s.v ∧ t.mode = .waitingForKey k) ∧
      (∀ j : Fin 16, t.keys[j] = true → (∀ l < j, t.keys[l] = false) →
        t.mode = .running ∧ t.v[k].toNat = j.val ∧ ∀ r : Reg, r ≠ k → t.v[r] = s.v[r])

/-- Both timers count down by one, floored at zero, in a step that starts in Running, unless its instruction writes them; in a step that
starts in WaitingForKey they stand still (10_state.md R27, 40_cycle.md R142, 60_exceptions.md R331; D17, D18, log entries 10 and 26). -/
def Obligations.TimersCountDownInRunningStepsOnly : Prop :=
  ∀ s t : State, step s = .next t →
    (∀ k, s.mode = .waitingForKey k → t.dt = s.dt ∧ t.st = s.st) ∧
    (s.mode = .running →
      (∀ w x, fetchWord s.mem s.pc.toNat = .ok w → decode w = .known (.ldDtX x) → t.dt = s.v[x]) ∧
      ((∀ w x, fetchWord s.mem s.pc.toNat = .ok w → decode w ≠ .known (.ldDtX x)) → t.dt.toNat = s.dt.toNat - 1) ∧
      (∀ w x, fetchWord s.mem s.pc.toNat = .ok w → decode w = .known (.ldStX x) → t.st = s.v[x]) ∧
      ((∀ w x, fetchWord s.mem s.pc.toNat = .ok w → decode w ≠ .known (.ldStX x)) → t.st.toNat = s.st.toNat - 1))

/-- What a step signals to the renderer: nothing when it raises a fatal condition; otherwise a frame exactly when the display-changed flag
is set at its end, the frame being that after the instruction, and the flag is cleared; CLS signals clear before it (40_cycle.md R147,
44_display.md R275, 60_exceptions.md R335; D32, D33, log entry 35). -/
def Obligations.StepPresentsTheChangedDisplayOnce : Prop :=
  ∀ s t : State, step s = .next t →
    (∀ r, t.status = .halted r → t.rendererOut = []) ∧
    (t.status = .ok →
      t.displayChanged = false ∧
      (∀ k, s.mode = .waitingForKey k → t.rendererOut = if s.displayChanged then [.present t.fb] else []) ∧
      (∀ w i, s.mode = .running → fetchWord s.mem s.pc.toNat = .ok w → decode w = .known i →
        (i = .cls → t.rendererOut = [.clear, .present t.fb]) ∧
        (mnemonic i = "DRW" → t.rendererOut = [.present t.fb]) ∧
        (mnemonic i ∉ ["CLS", "DRW"] → t.rendererOut = if s.displayChanged then [.present t.fb] else [])))

/-- The key snapshot of a step replaces keys wholesale, no instruction writes it, and only SKP and SKNP read it (10_state.md R30,
60_exceptions.md R337). -/
def Obligations.KeySnapshotIsReplacedWholesaleAndOnlyRead : Prop :=
  (∀ s t : State, step s = .next t →
    (∀ x rest, s.inputs = x :: rest → t.keys = x.keys ∧ t.inputs = rest) ∧ (s.inputs = [] → t.keys = Config.freeKeys s.tick)) ∧
  (∀ (i : Instr) (s t : State), exec i s = .next t → t.keys = s.keys) ∧
  (∀ (i : Instr) (s t : State) (k : Keys), mnemonic i ∉ ["SKP", "SKNP"] → exec i s = .next t →
    exec i { s with keys := k } = .next { t with keys := k })

/-- The random byte is read by RND alone (42_alu.md and 60_exceptions.md sections of R214 and R336; D23, log entry 4). -/
def Obligations.RandomByteIsReadByRndOnly : Prop :=
  ∀ (i : Instr) (s t : State) (b : Byte), mnemonic i ≠ "RND" → exec i s = .next t →
    exec i { s with rand8 := b } = .next { t with rand8 := b }

/-- No instruction reads ST: another value of it makes no difference but to ST itself (10_state.md R27, 60_exceptions.md R331). -/
def Obligations.SoundTimerIsReadByNoInstruction : Prop :=
  ∀ (i : Instr) (s t : State) (b : Byte), exec i s = .next t →
    ∃ u, exec i { s with st := b } = .next u ∧ u = { t with st := u.st }

/-! ## Reset and the invariant -/

/-- Every piece of state after reset (10_state.md section 9; D5, D6, D19, D25, log entries 11, 12, 15 and 16). -/
def Obligations.ResetLeavesTheStatedValues : Prop :=
  (∀ r : Reg, State.reset.v[r] = 0#8) ∧ State.reset.i = 0#16 ∧ State.reset.pc = 0x200#16 ∧ State.reset.stack = [] ∧
  State.reset.dt = 0#8 ∧ State.reset.st = 0#8 ∧ State.reset.mode = .running ∧ State.reset.displayChanged = false ∧
  State.reset.status = .ok ∧ (∀ k : Fin 16, State.reset.keys[k] = false) ∧
  (∀ r c, pixel State.reset.fb r c = false) ∧
  (∀ a, a < 80 → readByte State.reset.mem a = fontData.getD a 0#8) ∧
  (∀ a, 80 ≤ a → a < 4096 → readByte State.reset.mem a = 0#8)

/-- The state after reset meets the invariant (10_state.md sections 1, 3, 6 and 9). -/
def Obligations.ResetMeetsTheInvariant : Prop := State.reset.Inv

/-- Every step keeps the invariant: canonical memory, a call stack within STACK_DEPTH with return addresses of at most 0x1000, pc at most
0x10FE, the display-changed flag false between steps, an accurate record when halted (10_state.md sections 1, 3 and 6, 20_memory.md
section 1, 60_exceptions.md section 1; D13, D14, D30, log entries 22, 23 and 33). -/
def Obligations.StepKeepsTheInvariant : Prop :=
  ∀ s t : State, s.Inv → step s = .next t → t.Inv

/-! ## The whole machine -/

/-- Which instructions write which piece of state; nothing else writes it (10_state.md R21, R24, R26, R27, R28, R29, 20_memory.md R60; D9,
log entry 18). -/
def Obligations.EachPieceOfStateIsWrittenByItsInstructionsOnly : Prop :=
  ∀ (i : Instr) (s t : State), exec i s = .next t →
    (mnemonic i ∉ ["LD_B", "LD_mem_x"] → t.mem = s.mem) ∧
    (mnemonic i ∉ ["LD_imm", "ADD_imm", "LD_reg", "OR", "AND", "XOR", "ADD_reg", "SUB", "SHR", "SUBN", "SHL", "RND", "DRW", "LD_x_DT",
      "LD_x_mem"] → t.v = s.v) ∧
    (mnemonic i ∉ ["LD_I", "ADD_I", "LD_F"] → t.i = s.i) ∧
    (mnemonic i ∉ ["RET", "CALL"] → t.stack = s.stack) ∧
    (mnemonic i ≠ "LD_DT_x" → t.dt = s.dt) ∧
    (mnemonic i ≠ "LD_ST_x" → t.st = s.st) ∧
    (mnemonic i ∉ ["CLS", "DRW"] → t.fb = s.fb ∧ t.displayChanged = s.displayChanged) ∧
    (mnemonic i ≠ "LD_x_K" → t.mode = s.mode) ∧
    t.keys = s.keys ∧ t.rand8 = s.rand8 ∧ t.inputs = s.inputs ∧ t.tick = s.tick

/-- pc, which holds fetch_pc + 2 while an instruction executes, is written by RET, JP, CALL and JP_V0, and by a skip, which adds 2 or
nothing (10_state.md R25, 41_control.md R170; D24, log entry 29). -/
def Obligations.OnlyControlTransferWritesPc : Prop :=
  ∀ (i : Instr) (s t : State), exec i s = .next t → s.status = .ok → t.status = .ok →
    (mnemonic i ∉ ["RET", "JP", "CALL", "JP_V0", "SE_imm", "SNE_imm", "SE_reg", "SNE_reg", "SKP", "SKNP"] → t.pc = s.pc) ∧
    (mnemonic i ∈ ["SE_imm", "SNE_imm", "SE_reg", "SNE_reg", "SKP", "SKNP"] → t.pc = s.pc ∨ t.pc = s.pc + 2#16)

/-- VF changes only by an instruction that writes it as a flag, or as that instruction's ordinary destination (10_state.md section 2; D10,
log entry 19). -/
def Obligations.VFChangesOnlyAsFlagOrDestination : Prop :=
  ∀ (i : Instr) (s t : State), exec i s = .next t → t.v[(15 : Reg)] ≠ s.v[(15 : Reg)] →
    mnemonic i ∈ ["ADD_reg", "SUB", "SHR", "SUBN", "SHL", "DRW"] ∨
    (∃ nn, i = .ldImm 15 nn ∨ i = .addImm 15 nn ∨ i = .rnd 15 nn) ∨
    (∃ y, i = .ldReg 15 y ∨ i = .orReg 15 y ∨ i = .andReg 15 y ∨ i = .xorReg 15 y) ∨
    i = .ldXDt 15 ∨ i = .ldXMem 15

/-- An instruction raises at most one kind of fatal condition, its own; the record names the fetch address and the word, pc is the fetch
address again, and nothing else has changed (60_exceptions.md section 1; D13, D14, D32, log entries 22, 23 and 35). -/
def Obligations.EachInstructionRaisesItsOwnKindOnly : Prop :=
  ∀ (i : Instr) (s t : State) (r : FatalRecord), exec i s = .next t → s.status = .ok → t.status = .halted r →
    ((r.kind = .stackUnderflow ∧ i = .ret) ∨ (r.kind = .stackOverflow ∧ mnemonic i = "CALL") ∨
     (r.kind = .memoryOutOfRange ∧ mnemonic i ∈ ["DRW", "LD_B", "LD_mem_x", "LD_x_mem"]) ∨
     (r.kind = .keyIndexOutOfRange ∧ mnemonic i ∈ ["SKP", "SKNP"])) ∧
    r.fetchPc = s.pc - 2#16 ∧ r.word = some (encode i) ∧
    t = { s with pc := s.pc - 2#16, rendererOut := [], status := .halted r }

/-! ## Control transfer -/

/-- RET pops the last return address into pc; on an empty stack it raises StackUnderflow with information 0 (41_control.md R171). -/
def Obligations.RetPopsIntoPc : Prop :=
  (∀ (s : State) (l : List Word) (w : Word), s.stack = l ++ [w] → exec .ret s = .next { s with stack := l, pc := w }) ∧
  (∀ s : State, s.stack = [] →
    ∃ t r, exec .ret s = .next t ∧ t.status = .halted r ∧ r.kind = .stackUnderflow ∧ r.info = 0)

/-- JP sets pc to nnn (41_control.md R172). -/
def Obligations.JpSetsPc : Prop :=
  ∀ (nnn : BitVec 12) (s : State), ∃ t, exec (.jp nnn) s = .next t ∧ t = { s with pc := t.pc } ∧ t.pc.toNat = nnn.toNat

/-- JP V0 sets pc to the exact sum of nnn and V0, up to 0x10FE (41_control.md section of Bnnn; D30, log entry 33). -/
def Obligations.JpV0SetsPcToTheExactSum : Prop :=
  ∀ (nnn : BitVec 12) (s : State),
    ∃ t, exec (.jpV0 nnn) s = .next t ∧ t = { s with pc := t.pc } ∧ t.pc.toNat = nnn.toNat + s.v[(0 : Reg)].toNat

/-- CALL pushes pc, which is fetch_pc + 2, and jumps; at capacity it raises StackOverflow with the capacity as its information, and stack
and pc, which is fetch_pc again, are unchanged (41_control.md R173). -/
def Obligations.CallPushesAndJumps : Prop :=
  ∀ (nnn : BitVec 12) (s : State),
    (s.stack.length < stackDepth →
      ∃ t, exec (.call nnn) s = .next t ∧ t = { s with stack := s.stack ++ [s.pc], pc := t.pc } ∧ t.pc.toNat = nnn.toNat) ∧
    (s.stack.length = stackDepth →
      ∃ t r, exec (.call nnn) s = .next t ∧ t.status = .halted r ∧ r.kind = .stackOverflow ∧ r.info = stackDepth ∧
        t.stack = s.stack ∧ t.pc = s.pc - 2#16)

/-- Whatever the capacity is within 12 to 16 (the spec's D7, log entry 7): with fewer than 12 entries CALL completes, with 16 it overflows.
Where the capacity is 12 to 15, a stack of 16 entries is above it, a state that 10_state.md section 1 rules out and no run reaches; that
CALL overflows there too is the model's own DESIGN CHOICE (log entry 39). -/
def Obligations.CallOverflowsBetweenTwelveAndSixteen : Prop :=
  ∀ (nnn : BitVec 12) (s : State), s.status = .ok →
    ∃ t, exec (.call nnn) s = .next t ∧ (s.stack.length < 12 → t.status = .ok) ∧
      (s.stack.length = 16 → ∃ r, t.status = .halted r ∧ r.kind = .stackOverflow ∧ 12 ≤ r.info ∧ r.info ≤ 16)

/-- A RET after a CALL restores pc and the stack (41_control.md R173's example). -/
def Obligations.RetUndoesCall : Prop :=
  ∀ (nnn : BitVec 12) (s : State) (p : Word), s.stack.length < stackDepth →
    ∃ t, exec (.call nnn) s = .next t ∧ exec .ret { t with pc := p } = .next s

/-- SE Vx, nn and SNE Vx, nn compare all 8 bits and skip one instruction width (41_control.md R174, R175, 30_encoding.md R102). -/
def Obligations.SkipsOnImmediateCompareAllBits : Prop :=
  ∀ (x : Reg) (nn : Byte) (s : State),
    exec (.seImm x nn) s = .next { s with pc := if s.v[x].toNat = nn.toNat then s.pc + 2#16 else s.pc } ∧
    exec (.sneImm x nn) s = .next { s with pc := if s.v[x].toNat = nn.toNat then s.pc else s.pc + 2#16 }

/-- SE Vx, Vy and SNE Vx, Vy (41_control.md sections of 5xy0 and 9xy0; D3, log entry 8). -/
def Obligations.SkipsOnRegisters : Prop :=
  ∀ (x y : Reg) (s : State),
    exec (.seReg x y) s = .next { s with pc := if s.v[x].toNat = s.v[y].toNat then s.pc + 2#16 else s.pc } ∧
    exec (.sneReg x y) s = .next { s with pc := if s.v[x].toNat = s.v[y].toNat then s.pc else s.pc + 2#16 }

/-! ## ALU -/

/-- LD Vx, nn, ADD Vx, nn and LD Vx, Vy write V[x] alone, the sum modulo 256, and set no flag (42_alu.md R202, R203, R204). -/
def Obligations.LoadsAndAddImmediateWriteVxOnly : Prop :=
  ∀ (x y : Reg) (nn : Byte) (s : State),
    (∃ t, exec (.ldImm x nn) s = .next t ∧ t = { s with v := t.v } ∧ t.v[x] = nn ∧ ∀ r : Reg, r ≠ x → t.v[r] = s.v[r]) ∧
    (∃ t, exec (.addImm x nn) s = .next t ∧ t = { s with v := t.v } ∧ t.v[x].toNat = (s.v[x].toNat + nn.toNat) % 256 ∧
      ∀ r : Reg, r ≠ x → t.v[r] = s.v[r]) ∧
    (∃ t, exec (.ldReg x y) s = .next t ∧ t = { s with v := t.v } ∧ t.v[x] = s.v[y] ∧ ∀ r : Reg, r ≠ x → t.v[r] = s.v[r])

/-- OR, AND and XOR, bit by bit, write V[x] alone; VF is unchanged unless x = 15 (42_alu.md sections of 8xy1 to 8xy3; D10, log entry 19). -/
def Obligations.LogicWritesVxOnly : Prop :=
  ∀ (x y : Reg) (s : State),
    (∃ t, exec (.orReg x y) s = .next t ∧ t = { s with v := t.v } ∧ (∀ r : Reg, r ≠ x → t.v[r] = s.v[r]) ∧
      ∀ k, t.v[x].getLsbD k = (s.v[x].getLsbD k || s.v[y].getLsbD k)) ∧
    (∃ t, exec (.andReg x y) s = .next t ∧ t = { s with v := t.v } ∧ (∀ r : Reg, r ≠ x → t.v[r] = s.v[r]) ∧
      ∀ k, t.v[x].getLsbD k = (s.v[x].getLsbD k && s.v[y].getLsbD k)) ∧
    (∃ t, exec (.xorReg x y) s = .next t ∧ t = { s with v := t.v } ∧ (∀ r : Reg, r ≠ x → t.v[r] = s.v[r]) ∧
      ∀ k, t.v[x].getLsbD k = (s.v[x].getLsbD k ^^ s.v[y].getLsbD k))

/-- ADD Vx, Vy: the sum modulo 256, then VF = 1 iff it exceeds 255; with x = 15 VF is the flag, with y = 15 the old VF is added
(42_alu.md R209, R208). -/
def Obligations.AddSetsCarryLast : Prop :=
  ∀ (x y : Reg) (s : State), ∃ t, exec (.addReg x y) s = .next t ∧ t = { s with v := t.v } ∧
    t.v[(15 : Reg)].toNat = (if s.v[x].toNat + s.v[y].toNat > 255 then 1 else 0) ∧
    (x ≠ 15 → t.v[x].toNat = (s.v[x].toNat + s.v[y].toNat) % 256) ∧
    ∀ r : Reg, r ≠ x → r ≠ 15 → t.v[r] = s.v[r]

/-- SUB Vx, Vy: the difference modulo 256, then VF = 1 iff no borrow occurred (42_alu.md R210, R208). -/
def Obligations.SubSetsNoBorrowLast : Prop :=
  ∀ (x y : Reg) (s : State), ∃ t, exec (.sub x y) s = .next t ∧ t = { s with v := t.v } ∧
    t.v[(15 : Reg)].toNat = (if s.v[x].toNat ≥ s.v[y].toNat then 1 else 0) ∧
    (x ≠ 15 → t.v[x].toNat = (s.v[x].toNat + 256 - s.v[y].toNat) % 256) ∧
    ∀ r : Reg, r ≠ x → r ≠ 15 → t.v[r] = s.v[r]

/-- SUBN Vx, Vy: V[y] minus V[x], the operand order being the spec's own D37 (42_alu.md section of 8xy7; log entry 37). -/
def Obligations.SubnSetsNoBorrowLast : Prop :=
  ∀ (x y : Reg) (s : State), ∃ t, exec (.subn x y) s = .next t ∧ t = { s with v := t.v } ∧
    t.v[(15 : Reg)].toNat = (if s.v[y].toNat ≥ s.v[x].toNat then 1 else 0) ∧
    (x ≠ 15 → t.v[x].toNat = (s.v[y].toNat + 256 - s.v[x].toNat) % 256) ∧
    ∀ r : Reg, r ≠ x → r ≠ 15 → t.v[r] = s.v[r]

/-- SHR Vx halves V[x], then VF is the bit shifted out; V[y] has no effect, an inference of the spec's own (42_alu.md section of 8xy6; log
entry 40). -/
def Obligations.ShrPutsTheLowBitInVF : Prop :=
  ∀ (x y : Reg) (s : State),
    (∃ t, exec (.shr x y) s = .next t ∧ t = { s with v := t.v } ∧ t.v[(15 : Reg)].toNat = s.v[x].toNat % 2 ∧
      (x ≠ 15 → t.v[x].toNat = s.v[x].toNat / 2) ∧ (∀ r : Reg, r ≠ x → r ≠ 15 → t.v[r] = s.v[r])) ∧
    (∀ z : Reg, exec (.shr x z) s = exec (.shr x y) s)

/-- SHL Vx doubles V[x] modulo 256, then VF is the old bit 7; V[y] has no effect (42_alu.md R213). -/
def Obligations.ShlPutsTheHighBitInVF : Prop :=
  ∀ (x y : Reg) (s : State),
    (∃ t, exec (.shl x y) s = .next t ∧ t = { s with v := t.v } ∧ t.v[(15 : Reg)].toNat = s.v[x].toNat / 128 ∧
      (x ≠ 15 → t.v[x].toNat = 2 * s.v[x].toNat % 256) ∧ (∀ r : Reg, r ≠ x → r ≠ 15 → t.v[r] = s.v[r])) ∧
    (∀ z : Reg, exec (.shl x z) s = exec (.shl x y) s)

/-- RND Vx, nn: bit by bit, the step's random byte masked by nn; nothing is known of that byte (42_alu.md section of Cxnn; D23, log entry
4). -/
def Obligations.RndMasksTheRandomByte : Prop :=
  ∀ (x : Reg) (nn : Byte) (s : State), ∃ t, exec (.rnd x nn) s = .next t ∧ t = { s with v := t.v } ∧
    (∀ k, t.v[x].getLsbD k = (s.rand8.getLsbD k && nn.getLsbD k)) ∧ ∀ r : Reg, r ≠ x → t.v[r] = s.v[r]

/-! ## Index register and memory -/

/-- LD I, nnn (43_index_memory.md R241). -/
def Obligations.LdISetsI : Prop :=
  ∀ (nnn : BitVec 12) (s : State), ∃ t, exec (.ldI nnn) s = .next t ∧ t = { s with i := t.i } ∧ t.i.toNat = nnn.toNat

/-- ADD I, Vx adds modulo 65536 and leaves VF alone; LD F, Vx sets I to the glyph of the low nibble (43_index_memory.md sections of Fx1E and
Fx29; D5, D11, log entries 11 and 20). -/
def Obligations.IndexAddAndGlyphAddress : Prop :=
  ∀ (x : Reg) (s : State),
    (∃ t, exec (.addI x) s = .next t ∧ t = { s with i := t.i } ∧ t.i.toNat = (s.i.toNat + s.v[x].toNat) % 65536) ∧
    (∃ t, exec (.ldF x) s = .next t ∧ t = { s with i := t.i } ∧ t.i.toNat = fontBase + 5 * (s.v[x].toNat % 16))

/-- LD B, Vx stores the hundreds, tens and units of V[x] at I, I + 1 and I + 2 and nothing else; where I + 2 is 4096 or more it raises
MemoryOutOfRange for the lowest address out of range and writes no byte (43_index_memory.md R244). -/
def Obligations.BcdStoresThreeDigits : Prop :=
  ∀ (x : Reg) (s : State),
    (s.i.toNat + 2 < 4096 → ∃ t, exec (.ldB x) s = .next t ∧ t = { s with mem := t.mem } ∧
      (∀ a, a < s.i.toNat ∨ s.i.toNat + 2 < a → readByte t.mem a = readByte s.mem a) ∧
      (Memory.wf s.mem = true →
        (readByte t.mem s.i.toNat).toNat = s.v[x].toNat / 100 ∧
        (readByte t.mem (s.i.toNat + 1)).toNat = s.v[x].toNat / 10 % 10 ∧
        (readByte t.mem (s.i.toNat + 2)).toNat = s.v[x].toNat % 10)) ∧
    (4096 ≤ s.i.toNat + 2 →
      ∃ t r, exec (.ldB x) s = .next t ∧ t.status = .halted r ∧ r.kind = .memoryOutOfRange ∧ r.info = max s.i.toNat 4096 ∧
        t.mem = s.mem)

/-- LD [I], Vx stores V0 to Vx at I to I + x, leaves I and every other byte alone; out of range it raises MemoryOutOfRange and writes no
byte (43_index_memory.md section of Fx55; D9, log entry 18). -/
def Obligations.RegisterDumpStoresV0ToVx : Prop :=
  ∀ (x : Reg) (s : State),
    (s.i.toNat + x.val < 4096 → ∃ t, exec (.ldMemX x) s = .next t ∧ t = { s with mem := t.mem } ∧
      (∀ a, a < s.i.toNat ∨ s.i.toNat + x.val < a → readByte t.mem a = readByte s.mem a) ∧
      (Memory.wf s.mem = true → ∀ k : Reg, k ≤ x → readByte t.mem (s.i.toNat + k.val) = s.v[k])) ∧
    (4096 ≤ s.i.toNat + x.val →
      exec (.ldMemX x) s = .next
        { s with pc := s.pc - 2#16, rendererOut := [],
                 status := .halted ⟨.memoryOutOfRange, s.pc - 2#16, some (encode (.ldMemX x)), max s.i.toNat 4096⟩ })

/-- LD Vx, [I] loads V0 to Vx from I to I + x and leaves I, memory and the registers above x alone; out of range it raises MemoryOutOfRange
and writes no register (43_index_memory.md section of Fx65; D9, log entry 18). -/
def Obligations.RegisterLoadReadsV0ToVx : Prop :=
  ∀ (x : Reg) (s : State),
    (s.i.toNat + x.val < 4096 → ∃ t, exec (.ldXMem x) s = .next t ∧ t = { s with v := t.v } ∧
      (∀ k : Reg, k ≤ x → t.v[k] = readByte s.mem (s.i.toNat + k.val)) ∧ (∀ k : Reg, x < k → t.v[k] = s.v[k])) ∧
    (4096 ≤ s.i.toNat + x.val →
      exec (.ldXMem x) s = .next
        { s with pc := s.pc - 2#16, rendererOut := [],
                 status := .halted ⟨.memoryOutOfRange, s.pc - 2#16, some (encode (.ldXMem x)), max s.i.toNat 4096⟩ })

/-- The load is the inverse of the dump: whatever happens to the registers in between, the load brings back V0 to Vx
(43_index_memory.md section of Fx65; D9, log entry 18). -/
def Obligations.RegisterLoadUndoesDump : Prop :=
  ∀ (x : Reg) (s : State) (v : Vector Byte 16), Memory.wf s.mem = true → s.i.toNat + x.val < 4096 →
    ∃ t u, exec (.ldMemX x) s = .next t ∧ exec (.ldXMem x) { t with v := v } = .next u ∧ u = { t with v := u.v } ∧
      ∀ k : Reg, k ≤ x → u.v[k] = s.v[k]

/-- A byte a dump has stored is the byte a later fetch reads (20_memory.md section 3; D27, log entry 30). -/
def Obligations.StoredBytesAreFetched : Prop :=
  ∀ (x k : Reg) (s : State), Memory.wf s.mem = true → s.i.toNat + x.val < 4096 → k < x →
    ∃ t w, exec (.ldMemX x) s = .next t ∧ fetchWord t.mem (s.i.toNat + k.val) = .ok w ∧
      w.toNat = 256 * s.v[k].toNat + (readByte t.mem (s.i.toNat + k.val + 1)).toNat

/-- A read returns the most recent write to its address, else what was there before (20_memory.md sections 2 and 3). -/
def Obligations.ReadReturnsTheMostRecentWrite : Prop :=
  ∀ (m : Memory) (a b : Nat) (x y : Byte), Memory.wf m = true → a < 4096 → b < 4096 →
    ∀ c, readByte (writeByte (writeByte m a x) b y) c = if c = b then y else if c = a then x else readByte m c

/-- The loader copies an image that fits byte for byte, in the order of the image, from 0x200 on and touches nothing else (20_memory.md
R65). -/
def Obligations.ImageIsCopiedByteForByte : Prop :=
  ∀ (image : List Byte) (s : State), 0x200 + image.length ≤ 4096 →
    ∃ t, loadImage image s = some t ∧ t = { s with mem := t.mem } ∧
      (∀ a, a < 0x200 ∨ 0x200 + image.length ≤ a → readByte t.mem a = readByte s.mem a) ∧
      (Memory.wf s.mem = true → Memory.wf t.mem = true ∧ ∀ k, k < image.length → some (readByte t.mem (0x200 + k)) = image[k]?)

/-- An image that does not fit leaves no machine to step (70_reset_and_hazards.md section 1; D29, log entry 32). -/
def Obligations.ImageThatDoesNotFitStartsNoMachine : Prop :=
  ∀ (image : List Byte) (s : State), 4096 < 0x200 + image.length → loadImage image s = none ∧ boot image = none

/-! ## Display -/

/-- CLS sets every pixel to 0, sets the display-changed flag and asserts the clear strobe; nothing else changes (44_display.md R271). -/
def Obligations.ClsClearsTheFramebuffer : Prop :=
  ∀ s : State, ∃ t, exec .cls s = .next t ∧
    t = { s with fb := t.fb, displayChanged := true, rendererOut := s.rendererOut ++ [.clear] } ∧ ∀ r c, pixel t.fb r c = false

/-- DRW: the start wraps once, pixels past the right or bottom edge are clipped, each drawn pixel becomes old XOR bit, VF is 1 iff a drawn
1-bit met a pixel that was 1, and nothing else changes; rows past the bottom are not read; where a drawn row lies out of range nothing is
drawn and MemoryOutOfRange is raised (44_display.md section of Dxyn; D13, D21, D36, log entries 22, 27 and 36). -/
def Obligations.DrwXorsTheClippedSprite : Prop :=
  ∀ (x y : Reg) (n : BitVec 4) (s : State) (c0 r0 rows : Nat),
    c0 = s.v[x].toNat % 64 → r0 = s.v[y].toNat % 32 → rows = min n.toNat (32 - r0) →
    (rows = 0 ∨ s.i.toNat + rows ≤ 4096 →
      ∃ t, exec (.drw x y n) s = .next t ∧ t = { s with v := t.v, fb := t.fb, displayChanged := true } ∧
        (∀ r < 32, ∀ c < 64, pixel t.fb r c = (pixel s.fb r c ^^ spriteLit s.mem s.i.toNat r0 c0 rows r c)) ∧
        (t.v[(15 : Reg)] = 0#8 ∨ t.v[(15 : Reg)] = 1#8) ∧
        (t.v[(15 : Reg)] = 1#8 ↔
          ∃ r < 32, ∃ c < 64, pixel s.fb r c = true ∧ spriteLit s.mem s.i.toNat r0 c0 rows r c = true) ∧
        ∀ r : Reg, r ≠ 15 → t.v[r] = s.v[r]) ∧
    (0 < rows → 4096 < s.i.toNat + rows →
      exec (.drw x y n) s = .next
        { s with pc := s.pc - 2#16, rendererOut := [],
                 status := .halted ⟨.memoryOutOfRange, s.pc - 2#16, some (encode (.drw x y n)), max s.i.toNat 4096⟩ })

/-- The same sprite drawn twice at the same place brings the framebuffer back, and the second draw collides exactly where the sprite lit a
pixel that was 0 (10_state.md R28, 44_display.md R274; the worked example S5 of 95_test_vectors.md). -/
def Obligations.DrawingTwiceRestoresTheFramebuffer : Prop :=
  ∀ (x y : Reg) (n : BitVec 4) (s t : State), exec (.drw x y n) s = .next t → s.status = .ok → t.status = .ok →
    t.v[x] = s.v[x] → t.v[y] = s.v[y] →
    ∃ u, exec (.drw x y n) t = .next u ∧ u.fb = s.fb ∧
      (u.v[(15 : Reg)] = 1#8 ↔ ∃ r < 32, ∃ c < 64, pixel s.fb r c = false ∧ pixel t.fb r c = true)

/-! ## Timers and keys -/

/-- SKP skips when the key of V[x], masked to 0..15, is held, SKNP when it is not; under KEY_INDEX_MODE = fault an index above 15 raises
KeyIndexOutOfRange and one in range skips as under mask (45_timers_keys.md sections of Ex9E and ExA1; D8, log entry 9). -/
def Obligations.KeySkipsTestTheKeyOfVx : Prop :=
  ∀ (x : Reg) (s : State),
    (∀ k : Fin 16, k.val = s.v[x].toNat % 16 →
      exec (.skp x) s = .next { s with pc := if s.keys[k] = true then s.pc + 2#16 else s.pc } ∧
      exec (.sknp x) s = .next { s with pc := if s.keys[k] = true then s.pc else s.pc + 2#16 }) ∧
    (∀ (held : Bool) (i : Instr), s.v[x].toNat ≤ 15 → skipOnKey .fault held i x s = skipOnKey .mask held i x s) ∧
    (∀ (held : Bool) (i : Instr), 15 < s.v[x].toNat →
      skipOnKey .fault held i x s = 
        { s with pc := s.pc - 2#16, rendererOut := [],
                 status := .halted ⟨.keyIndexOutOfRange, s.pc - 2#16, some (encode i), s.v[x].toNat⟩ })

/-- LD Vx, DT reads DT and LD DT, Vx writes it, and nothing else changes. In a step, the value read is DT after this step's decay, and a
value written is not decayed in this step (45_timers_keys.md R293, R294). -/
def Obligations.DelayTimerReadAndWrite : Prop :=
  (∀ (x : Reg) (s : State),
    (∃ t, exec (.ldXDt x) s = .next t ∧ t = { s with v := t.v } ∧ t.v[x] = s.dt ∧ ∀ r : Reg, r ≠ x → t.v[r] = s.v[r]) ∧
    (∃ t, exec (.ldDtX x) s = .next t ∧ t = { s with dt := s.v[x] })) ∧
  (∀ (s : State) (w : Word) (x : Reg), s.status = .ok → s.mode = .running → fetchWord s.mem s.pc.toNat = .ok w →
    (decode w = .known (.ldXDt x) → ∃ t, step s = .next t ∧ t.v[x].toNat = s.dt.toNat - 1 ∧ t.dt = t.v[x]) ∧
    (decode w = .known (.ldDtX x) → ∃ t, step s = .next t ∧ t.dt = s.v[x]))

/-- LD ST, Vx writes ST, whose value the block puts out, and nothing else changes (45_timers_keys.md R295). -/
def Obligations.SoundTimerWrite : Prop :=
  ∀ (x : Reg) (s : State), ∃ t, exec (.ldStX x) s = .next t ∧ t = { s with st := s.v[x] } ∧ t.soundTimerOut = s.v[x]

/-- LD Vx, K enters WaitingForKey(x) and writes no register; a step that executes it leaves pc past it, keys held in that step do not end
the wait (45_timers_keys.md section of Fx0A). -/
def Obligations.KeyWaitIsEnteredPastTheInstruction : Prop :=
  (∀ (x : Reg) (s : State), exec (.ldXK x) s = .next { s with mode := .waitingForKey x }) ∧
  (∀ (s : State) (w : Word) (x : Reg), s.status = .ok → s.mode = .running → fetchWord s.mem s.pc.toNat = .ok w →
    decode w = .known (.ldXK x) →
    ∃ t, step s = .next t ∧ t.status = .ok ∧ t.mode = .waitingForKey x ∧ t.v = s.v ∧ t.pc.toNat = s.pc.toNat + 2)
end

