-- ==== Sys2Proof/Laws/State.lean ====
section
/-! SUPPORT. What each update of State does to each field: one lemma per field per update, true by rfl, so that no proof unfolds a record update. -/

namespace Sys2Proof.Machine

@[simp] theorem State.setV_mem (s : State) (x : Reg) (b : Byte) : (s.setV x b).mem = s.mem := rfl
@[simp] theorem State.setV_v (s : State) (x : Reg) (b : Byte) : (s.setV x b).v = s.v.set x.val b x.isLt := rfl
@[simp] theorem State.setV_i (s : State) (x : Reg) (b : Byte) : (s.setV x b).i = s.i := rfl
@[simp] theorem State.setV_pc (s : State) (x : Reg) (b : Byte) : (s.setV x b).pc = s.pc := rfl
@[simp] theorem State.setV_stack (s : State) (x : Reg) (b : Byte) : (s.setV x b).stack = s.stack := rfl
@[simp] theorem State.setV_dt (s : State) (x : Reg) (b : Byte) : (s.setV x b).dt = s.dt := rfl
@[simp] theorem State.setV_st (s : State) (x : Reg) (b : Byte) : (s.setV x b).st = s.st := rfl
@[simp] theorem State.setV_fb (s : State) (x : Reg) (b : Byte) : (s.setV x b).fb = s.fb := rfl
@[simp] theorem State.setV_keys (s : State) (x : Reg) (b : Byte) : (s.setV x b).keys = s.keys := rfl
@[simp] theorem State.setV_mode (s : State) (x : Reg) (b : Byte) : (s.setV x b).mode = s.mode := rfl
@[simp] theorem State.setV_displayChanged (s : State) (x : Reg) (b : Byte) : (s.setV x b).displayChanged = s.displayChanged := rfl
@[simp] theorem State.setV_status (s : State) (x : Reg) (b : Byte) : (s.setV x b).status = s.status := rfl
@[simp] theorem State.setV_rand8 (s : State) (x : Reg) (b : Byte) : (s.setV x b).rand8 = s.rand8 := rfl
@[simp] theorem State.setV_inputs (s : State) (x : Reg) (b : Byte) : (s.setV x b).inputs = s.inputs := rfl
@[simp] theorem State.setV_tick (s : State) (x : Reg) (b : Byte) : (s.setV x b).tick = s.tick := rfl
@[simp] theorem State.setV_rendererOut (s : State) (x : Reg) (b : Byte) : (s.setV x b).rendererOut = s.rendererOut := rfl

@[simp] theorem State.setRegs_mem (s : State) (v : Vector Byte 16) : (s.setRegs v).mem = s.mem := rfl
@[simp] theorem State.setRegs_v (s : State) (v : Vector Byte 16) : (s.setRegs v).v = v := rfl
@[simp] theorem State.setRegs_i (s : State) (v : Vector Byte 16) : (s.setRegs v).i = s.i := rfl
@[simp] theorem State.setRegs_pc (s : State) (v : Vector Byte 16) : (s.setRegs v).pc = s.pc := rfl
@[simp] theorem State.setRegs_stack (s : State) (v : Vector Byte 16) : (s.setRegs v).stack = s.stack := rfl
@[simp] theorem State.setRegs_dt (s : State) (v : Vector Byte 16) : (s.setRegs v).dt = s.dt := rfl
@[simp] theorem State.setRegs_st (s : State) (v : Vector Byte 16) : (s.setRegs v).st = s.st := rfl
@[simp] theorem State.setRegs_fb (s : State) (v : Vector Byte 16) : (s.setRegs v).fb = s.fb := rfl
@[simp] theorem State.setRegs_keys (s : State) (v : Vector Byte 16) : (s.setRegs v).keys = s.keys := rfl
@[simp] theorem State.setRegs_mode (s : State) (v : Vector Byte 16) : (s.setRegs v).mode = s.mode := rfl
@[simp] theorem State.setRegs_displayChanged (s : State) (v : Vector Byte 16) : (s.setRegs v).displayChanged = s.displayChanged := rfl
@[simp] theorem State.setRegs_status (s : State) (v : Vector Byte 16) : (s.setRegs v).status = s.status := rfl
@[simp] theorem State.setRegs_rand8 (s : State) (v : Vector Byte 16) : (s.setRegs v).rand8 = s.rand8 := rfl
@[simp] theorem State.setRegs_inputs (s : State) (v : Vector Byte 16) : (s.setRegs v).inputs = s.inputs := rfl
@[simp] theorem State.setRegs_tick (s : State) (v : Vector Byte 16) : (s.setRegs v).tick = s.tick := rfl
@[simp] theorem State.setRegs_rendererOut (s : State) (v : Vector Byte 16) : (s.setRegs v).rendererOut = s.rendererOut := rfl

@[simp] theorem State.setI_mem (s : State) (w : Word) : (s.setI w).mem = s.mem := rfl
@[simp] theorem State.setI_v (s : State) (w : Word) : (s.setI w).v = s.v := rfl
@[simp] theorem State.setI_i (s : State) (w : Word) : (s.setI w).i = w := rfl
@[simp] theorem State.setI_pc (s : State) (w : Word) : (s.setI w).pc = s.pc := rfl
@[simp] theorem State.setI_stack (s : State) (w : Word) : (s.setI w).stack = s.stack := rfl
@[simp] theorem State.setI_dt (s : State) (w : Word) : (s.setI w).dt = s.dt := rfl
@[simp] theorem State.setI_st (s : State) (w : Word) : (s.setI w).st = s.st := rfl
@[simp] theorem State.setI_fb (s : State) (w : Word) : (s.setI w).fb = s.fb := rfl
@[simp] theorem State.setI_keys (s : State) (w : Word) : (s.setI w).keys = s.keys := rfl
@[simp] theorem State.setI_mode (s : State) (w : Word) : (s.setI w).mode = s.mode := rfl
@[simp] theorem State.setI_displayChanged (s : State) (w : Word) : (s.setI w).displayChanged = s.displayChanged := rfl
@[simp] theorem State.setI_status (s : State) (w : Word) : (s.setI w).status = s.status := rfl
@[simp] theorem State.setI_rand8 (s : State) (w : Word) : (s.setI w).rand8 = s.rand8 := rfl
@[simp] theorem State.setI_inputs (s : State) (w : Word) : (s.setI w).inputs = s.inputs := rfl
@[simp] theorem State.setI_tick (s : State) (w : Word) : (s.setI w).tick = s.tick := rfl
@[simp] theorem State.setI_rendererOut (s : State) (w : Word) : (s.setI w).rendererOut = s.rendererOut := rfl

@[simp] theorem State.setPc_mem (s : State) (w : Word) : (s.setPc w).mem = s.mem := rfl
@[simp] theorem State.setPc_v (s : State) (w : Word) : (s.setPc w).v = s.v := rfl
@[simp] theorem State.setPc_i (s : State) (w : Word) : (s.setPc w).i = s.i := rfl
@[simp] theorem State.setPc_pc (s : State) (w : Word) : (s.setPc w).pc = w := rfl
@[simp] theorem State.setPc_stack (s : State) (w : Word) : (s.setPc w).stack = s.stack := rfl
@[simp] theorem State.setPc_dt (s : State) (w : Word) : (s.setPc w).dt = s.dt := rfl
@[simp] theorem State.setPc_st (s : State) (w : Word) : (s.setPc w).st = s.st := rfl
@[simp] theorem State.setPc_fb (s : State) (w : Word) : (s.setPc w).fb = s.fb := rfl
@[simp] theorem State.setPc_keys (s : State) (w : Word) : (s.setPc w).keys = s.keys := rfl
@[simp] theorem State.setPc_mode (s : State) (w : Word) : (s.setPc w).mode = s.mode := rfl
@[simp] theorem State.setPc_displayChanged (s : State) (w : Word) : (s.setPc w).displayChanged = s.displayChanged := rfl
@[simp] theorem State.setPc_status (s : State) (w : Word) : (s.setPc w).status = s.status := rfl
@[simp] theorem State.setPc_rand8 (s : State) (w : Word) : (s.setPc w).rand8 = s.rand8 := rfl
@[simp] theorem State.setPc_inputs (s : State) (w : Word) : (s.setPc w).inputs = s.inputs := rfl
@[simp] theorem State.setPc_tick (s : State) (w : Word) : (s.setPc w).tick = s.tick := rfl
@[simp] theorem State.setPc_rendererOut (s : State) (w : Word) : (s.setPc w).rendererOut = s.rendererOut := rfl

@[simp] theorem State.setStack_mem (s : State) (l : List Word) : (s.setStack l).mem = s.mem := rfl
@[simp] theorem State.setStack_v (s : State) (l : List Word) : (s.setStack l).v = s.v := rfl
@[simp] theorem State.setStack_i (s : State) (l : List Word) : (s.setStack l).i = s.i := rfl
@[simp] theorem State.setStack_pc (s : State) (l : List Word) : (s.setStack l).pc = s.pc := rfl
@[simp] theorem State.setStack_stack (s : State) (l : List Word) : (s.setStack l).stack = l := rfl
@[simp] theorem State.setStack_dt (s : State) (l : List Word) : (s.setStack l).dt = s.dt := rfl
@[simp] theorem State.setStack_st (s : State) (l : List Word) : (s.setStack l).st = s.st := rfl
@[simp] theorem State.setStack_fb (s : State) (l : List Word) : (s.setStack l).fb = s.fb := rfl
@[simp] theorem State.setStack_keys (s : State) (l : List Word) : (s.setStack l).keys = s.keys := rfl
@[simp] theorem State.setStack_mode (s : State) (l : List Word) : (s.setStack l).mode = s.mode := rfl
@[simp] theorem State.setStack_displayChanged (s : State) (l : List Word) : (s.setStack l).displayChanged = s.displayChanged := rfl
@[simp] theorem State.setStack_status (s : State) (l : List Word) : (s.setStack l).status = s.status := rfl
@[simp] theorem State.setStack_rand8 (s : State) (l : List Word) : (s.setStack l).rand8 = s.rand8 := rfl
@[simp] theorem State.setStack_inputs (s : State) (l : List Word) : (s.setStack l).inputs = s.inputs := rfl
@[simp] theorem State.setStack_tick (s : State) (l : List Word) : (s.setStack l).tick = s.tick := rfl
@[simp] theorem State.setStack_rendererOut (s : State) (l : List Word) : (s.setStack l).rendererOut = s.rendererOut := rfl

@[simp] theorem State.setDt_mem (s : State) (b : Byte) : (s.setDt b).mem = s.mem := rfl
@[simp] theorem State.setDt_v (s : State) (b : Byte) : (s.setDt b).v = s.v := rfl
@[simp] theorem State.setDt_i (s : State) (b : Byte) : (s.setDt b).i = s.i := rfl
@[simp] theorem State.setDt_pc (s : State) (b : Byte) : (s.setDt b).pc = s.pc := rfl
@[simp] theorem State.setDt_stack (s : State) (b : Byte) : (s.setDt b).stack = s.stack := rfl
@[simp] theorem State.setDt_dt (s : State) (b : Byte) : (s.setDt b).dt = b := rfl
@[simp] theorem State.setDt_st (s : State) (b : Byte) : (s.setDt b).st = s.st := rfl
@[simp] theorem State.setDt_fb (s : State) (b : Byte) : (s.setDt b).fb = s.fb := rfl
@[simp] theorem State.setDt_keys (s : State) (b : Byte) : (s.setDt b).keys = s.keys := rfl
@[simp] theorem State.setDt_mode (s : State) (b : Byte) : (s.setDt b).mode = s.mode := rfl
@[simp] theorem State.setDt_displayChanged (s : State) (b : Byte) : (s.setDt b).displayChanged = s.displayChanged := rfl
@[simp] theorem State.setDt_status (s : State) (b : Byte) : (s.setDt b).status = s.status := rfl
@[simp] theorem State.setDt_rand8 (s : State) (b : Byte) : (s.setDt b).rand8 = s.rand8 := rfl
@[simp] theorem State.setDt_inputs (s : State) (b : Byte) : (s.setDt b).inputs = s.inputs := rfl
@[simp] theorem State.setDt_tick (s : State) (b : Byte) : (s.setDt b).tick = s.tick := rfl
@[simp] theorem State.setDt_rendererOut (s : State) (b : Byte) : (s.setDt b).rendererOut = s.rendererOut := rfl

@[simp] theorem State.setSt_mem (s : State) (b : Byte) : (s.setSt b).mem = s.mem := rfl
@[simp] theorem State.setSt_v (s : State) (b : Byte) : (s.setSt b).v = s.v := rfl
@[simp] theorem State.setSt_i (s : State) (b : Byte) : (s.setSt b).i = s.i := rfl
@[simp] theorem State.setSt_pc (s : State) (b : Byte) : (s.setSt b).pc = s.pc := rfl
@[simp] theorem State.setSt_stack (s : State) (b : Byte) : (s.setSt b).stack = s.stack := rfl
@[simp] theorem State.setSt_dt (s : State) (b : Byte) : (s.setSt b).dt = s.dt := rfl
@[simp] theorem State.setSt_st (s : State) (b : Byte) : (s.setSt b).st = b := rfl
@[simp] theorem State.setSt_fb (s : State) (b : Byte) : (s.setSt b).fb = s.fb := rfl
@[simp] theorem State.setSt_keys (s : State) (b : Byte) : (s.setSt b).keys = s.keys := rfl
@[simp] theorem State.setSt_mode (s : State) (b : Byte) : (s.setSt b).mode = s.mode := rfl
@[simp] theorem State.setSt_displayChanged (s : State) (b : Byte) : (s.setSt b).displayChanged = s.displayChanged := rfl
@[simp] theorem State.setSt_status (s : State) (b : Byte) : (s.setSt b).status = s.status := rfl
@[simp] theorem State.setSt_rand8 (s : State) (b : Byte) : (s.setSt b).rand8 = s.rand8 := rfl
@[simp] theorem State.setSt_inputs (s : State) (b : Byte) : (s.setSt b).inputs = s.inputs := rfl
@[simp] theorem State.setSt_tick (s : State) (b : Byte) : (s.setSt b).tick = s.tick := rfl
@[simp] theorem State.setSt_rendererOut (s : State) (b : Byte) : (s.setSt b).rendererOut = s.rendererOut := rfl

@[simp] theorem State.setMem_mem (s : State) (m : Memory) : (s.setMem m).mem = m := rfl
@[simp] theorem State.setMem_v (s : State) (m : Memory) : (s.setMem m).v = s.v := rfl
@[simp] theorem State.setMem_i (s : State) (m : Memory) : (s.setMem m).i = s.i := rfl
@[simp] theorem State.setMem_pc (s : State) (m : Memory) : (s.setMem m).pc = s.pc := rfl
@[simp] theorem State.setMem_stack (s : State) (m : Memory) : (s.setMem m).stack = s.stack := rfl
@[simp] theorem State.setMem_dt (s : State) (m : Memory) : (s.setMem m).dt = s.dt := rfl
@[simp] theorem State.setMem_st (s : State) (m : Memory) : (s.setMem m).st = s.st := rfl
@[simp] theorem State.setMem_fb (s : State) (m : Memory) : (s.setMem m).fb = s.fb := rfl
@[simp] theorem State.setMem_keys (s : State) (m : Memory) : (s.setMem m).keys = s.keys := rfl
@[simp] theorem State.setMem_mode (s : State) (m : Memory) : (s.setMem m).mode = s.mode := rfl
@[simp] theorem State.setMem_displayChanged (s : State) (m : Memory) : (s.setMem m).displayChanged = s.displayChanged := rfl
@[simp] theorem State.setMem_status (s : State) (m : Memory) : (s.setMem m).status = s.status := rfl
@[simp] theorem State.setMem_rand8 (s : State) (m : Memory) : (s.setMem m).rand8 = s.rand8 := rfl
@[simp] theorem State.setMem_inputs (s : State) (m : Memory) : (s.setMem m).inputs = s.inputs := rfl
@[simp] theorem State.setMem_tick (s : State) (m : Memory) : (s.setMem m).tick = s.tick := rfl
@[simp] theorem State.setMem_rendererOut (s : State) (m : Memory) : (s.setMem m).rendererOut = s.rendererOut := rfl

@[simp] theorem State.setFb_mem (s : State) (fb : Framebuffer) : (s.setFb fb).mem = s.mem := rfl
@[simp] theorem State.setFb_v (s : State) (fb : Framebuffer) : (s.setFb fb).v = s.v := rfl
@[simp] theorem State.setFb_i (s : State) (fb : Framebuffer) : (s.setFb fb).i = s.i := rfl
@[simp] theorem State.setFb_pc (s : State) (fb : Framebuffer) : (s.setFb fb).pc = s.pc := rfl
@[simp] theorem State.setFb_stack (s : State) (fb : Framebuffer) : (s.setFb fb).stack = s.stack := rfl
@[simp] theorem State.setFb_dt (s : State) (fb : Framebuffer) : (s.setFb fb).dt = s.dt := rfl
@[simp] theorem State.setFb_st (s : State) (fb : Framebuffer) : (s.setFb fb).st = s.st := rfl
@[simp] theorem State.setFb_fb (s : State) (fb : Framebuffer) : (s.setFb fb).fb = fb := rfl
@[simp] theorem State.setFb_keys (s : State) (fb : Framebuffer) : (s.setFb fb).keys = s.keys := rfl
@[simp] theorem State.setFb_mode (s : State) (fb : Framebuffer) : (s.setFb fb).mode = s.mode := rfl
@[simp] theorem State.setFb_displayChanged (s : State) (fb : Framebuffer) : (s.setFb fb).displayChanged = true := rfl
@[simp] theorem State.setFb_status (s : State) (fb : Framebuffer) : (s.setFb fb).status = s.status := rfl
@[simp] theorem State.setFb_rand8 (s : State) (fb : Framebuffer) : (s.setFb fb).rand8 = s.rand8 := rfl
@[simp] theorem State.setFb_inputs (s : State) (fb : Framebuffer) : (s.setFb fb).inputs = s.inputs := rfl
@[simp] theorem State.setFb_tick (s : State) (fb : Framebuffer) : (s.setFb fb).tick = s.tick := rfl
@[simp] theorem State.setFb_rendererOut (s : State) (fb : Framebuffer) : (s.setFb fb).rendererOut = s.rendererOut := rfl

@[simp] theorem State.setMode_mem (s : State) (m : Mode) : (s.setMode m).mem = s.mem := rfl
@[simp] theorem State.setMode_v (s : State) (m : Mode) : (s.setMode m).v = s.v := rfl
@[simp] theorem State.setMode_i (s : State) (m : Mode) : (s.setMode m).i = s.i := rfl
@[simp] theorem State.setMode_pc (s : State) (m : Mode) : (s.setMode m).pc = s.pc := rfl
@[simp] theorem State.setMode_stack (s : State) (m : Mode) : (s.setMode m).stack = s.stack := rfl
@[simp] theorem State.setMode_dt (s : State) (m : Mode) : (s.setMode m).dt = s.dt := rfl
@[simp] theorem State.setMode_st (s : State) (m : Mode) : (s.setMode m).st = s.st := rfl
@[simp] theorem State.setMode_fb (s : State) (m : Mode) : (s.setMode m).fb = s.fb := rfl
@[simp] theorem State.setMode_keys (s : State) (m : Mode) : (s.setMode m).keys = s.keys := rfl
@[simp] theorem State.setMode_mode (s : State) (m : Mode) : (s.setMode m).mode = m := rfl
@[simp] theorem State.setMode_displayChanged (s : State) (m : Mode) : (s.setMode m).displayChanged = s.displayChanged := rfl
@[simp] theorem State.setMode_status (s : State) (m : Mode) : (s.setMode m).status = s.status := rfl
@[simp] theorem State.setMode_rand8 (s : State) (m : Mode) : (s.setMode m).rand8 = s.rand8 := rfl
@[simp] theorem State.setMode_inputs (s : State) (m : Mode) : (s.setMode m).inputs = s.inputs := rfl
@[simp] theorem State.setMode_tick (s : State) (m : Mode) : (s.setMode m).tick = s.tick := rfl
@[simp] theorem State.setMode_rendererOut (s : State) (m : Mode) : (s.setMode m).rendererOut = s.rendererOut := rfl

@[simp] theorem State.signal_mem (s : State) (c : RendererCall) : (s.signal c).mem = s.mem := rfl
@[simp] theorem State.signal_v (s : State) (c : RendererCall) : (s.signal c).v = s.v := rfl
@[simp] theorem State.signal_i (s : State) (c : RendererCall) : (s.signal c).i = s.i := rfl
@[simp] theorem State.signal_pc (s : State) (c : RendererCall) : (s.signal c).pc = s.pc := rfl
@[simp] theorem State.signal_stack (s : State) (c : RendererCall) : (s.signal c).stack = s.stack := rfl
@[simp] theorem State.signal_dt (s : State) (c : RendererCall) : (s.signal c).dt = s.dt := rfl
@[simp] theorem State.signal_st (s : State) (c : RendererCall) : (s.signal c).st = s.st := rfl
@[simp] theorem State.signal_fb (s : State) (c : RendererCall) : (s.signal c).fb = s.fb := rfl
@[simp] theorem State.signal_keys (s : State) (c : RendererCall) : (s.signal c).keys = s.keys := rfl
@[simp] theorem State.signal_mode (s : State) (c : RendererCall) : (s.signal c).mode = s.mode := rfl
@[simp] theorem State.signal_displayChanged (s : State) (c : RendererCall) : (s.signal c).displayChanged = s.displayChanged := rfl
@[simp] theorem State.signal_status (s : State) (c : RendererCall) : (s.signal c).status = s.status := rfl
@[simp] theorem State.signal_rand8 (s : State) (c : RendererCall) : (s.signal c).rand8 = s.rand8 := rfl
@[simp] theorem State.signal_inputs (s : State) (c : RendererCall) : (s.signal c).inputs = s.inputs := rfl
@[simp] theorem State.signal_tick (s : State) (c : RendererCall) : (s.signal c).tick = s.tick := rfl
@[simp] theorem State.signal_rendererOut (s : State) (c : RendererCall) : (s.signal c).rendererOut = s.rendererOut ++ [c] := rfl

@[simp] theorem State.halt_mem (s : State) (r : FatalRecord) : (s.halt r).mem = s.mem := rfl
@[simp] theorem State.halt_v (s : State) (r : FatalRecord) : (s.halt r).v = s.v := rfl
@[simp] theorem State.halt_i (s : State) (r : FatalRecord) : (s.halt r).i = s.i := rfl
@[simp] theorem State.halt_pc (s : State) (r : FatalRecord) : (s.halt r).pc = s.pc := rfl
@[simp] theorem State.halt_stack (s : State) (r : FatalRecord) : (s.halt r).stack = s.stack := rfl
@[simp] theorem State.halt_dt (s : State) (r : FatalRecord) : (s.halt r).dt = s.dt := rfl
@[simp] theorem State.halt_st (s : State) (r : FatalRecord) : (s.halt r).st = s.st := rfl
@[simp] theorem State.halt_fb (s : State) (r : FatalRecord) : (s.halt r).fb = s.fb := rfl
@[simp] theorem State.halt_keys (s : State) (r : FatalRecord) : (s.halt r).keys = s.keys := rfl
@[simp] theorem State.halt_mode (s : State) (r : FatalRecord) : (s.halt r).mode = s.mode := rfl
@[simp] theorem State.halt_displayChanged (s : State) (r : FatalRecord) : (s.halt r).displayChanged = s.displayChanged := rfl
@[simp] theorem State.halt_status (s : State) (r : FatalRecord) : (s.halt r).status = .halted r := rfl
@[simp] theorem State.halt_rand8 (s : State) (r : FatalRecord) : (s.halt r).rand8 = s.rand8 := rfl
@[simp] theorem State.halt_inputs (s : State) (r : FatalRecord) : (s.halt r).inputs = s.inputs := rfl
@[simp] theorem State.halt_tick (s : State) (r : FatalRecord) : (s.halt r).tick = s.tick := rfl
@[simp] theorem State.halt_rendererOut (s : State) (r : FatalRecord) : (s.halt r).rendererOut = [] := rfl

@[simp] theorem State.skipIf_mem (s : State) (c : Bool) : (s.skipIf c).mem = s.mem := rfl
@[simp] theorem State.skipIf_v (s : State) (c : Bool) : (s.skipIf c).v = s.v := rfl
@[simp] theorem State.skipIf_i (s : State) (c : Bool) : (s.skipIf c).i = s.i := rfl
@[simp] theorem State.skipIf_pc (s : State) (c : Bool) : (s.skipIf c).pc = if c then s.pc + 2#16 else s.pc := rfl
@[simp] theorem State.skipIf_stack (s : State) (c : Bool) : (s.skipIf c).stack = s.stack := rfl
@[simp] theorem State.skipIf_dt (s : State) (c : Bool) : (s.skipIf c).dt = s.dt := rfl
@[simp] theorem State.skipIf_st (s : State) (c : Bool) : (s.skipIf c).st = s.st := rfl
@[simp] theorem State.skipIf_fb (s : State) (c : Bool) : (s.skipIf c).fb = s.fb := rfl
@[simp] theorem State.skipIf_keys (s : State) (c : Bool) : (s.skipIf c).keys = s.keys := rfl
@[simp] theorem State.skipIf_mode (s : State) (c : Bool) : (s.skipIf c).mode = s.mode := rfl
@[simp] theorem State.skipIf_displayChanged (s : State) (c : Bool) : (s.skipIf c).displayChanged = s.displayChanged := rfl
@[simp] theorem State.skipIf_status (s : State) (c : Bool) : (s.skipIf c).status = s.status := rfl
@[simp] theorem State.skipIf_rand8 (s : State) (c : Bool) : (s.skipIf c).rand8 = s.rand8 := rfl
@[simp] theorem State.skipIf_inputs (s : State) (c : Bool) : (s.skipIf c).inputs = s.inputs := rfl
@[simp] theorem State.skipIf_tick (s : State) (c : Bool) : (s.skipIf c).tick = s.tick := rfl
@[simp] theorem State.skipIf_rendererOut (s : State) (c : Bool) : (s.skipIf c).rendererOut = s.rendererOut := rfl

@[simp] theorem State.push_mem (s : State) (w : Word) : (s.push w).mem = s.mem := rfl
@[simp] theorem State.push_v (s : State) (w : Word) : (s.push w).v = s.v := rfl
@[simp] theorem State.push_i (s : State) (w : Word) : (s.push w).i = s.i := rfl
@[simp] theorem State.push_pc (s : State) (w : Word) : (s.push w).pc = s.pc := rfl
@[simp] theorem State.push_stack (s : State) (w : Word) : (s.push w).stack = s.stack ++ [w] := rfl
@[simp] theorem State.push_dt (s : State) (w : Word) : (s.push w).dt = s.dt := rfl
@[simp] theorem State.push_st (s : State) (w : Word) : (s.push w).st = s.st := rfl
@[simp] theorem State.push_fb (s : State) (w : Word) : (s.push w).fb = s.fb := rfl
@[simp] theorem State.push_keys (s : State) (w : Word) : (s.push w).keys = s.keys := rfl
@[simp] theorem State.push_mode (s : State) (w : Word) : (s.push w).mode = s.mode := rfl
@[simp] theorem State.push_displayChanged (s : State) (w : Word) : (s.push w).displayChanged = s.displayChanged := rfl
@[simp] theorem State.push_status (s : State) (w : Word) : (s.push w).status = s.status := rfl
@[simp] theorem State.push_rand8 (s : State) (w : Word) : (s.push w).rand8 = s.rand8 := rfl
@[simp] theorem State.push_inputs (s : State) (w : Word) : (s.push w).inputs = s.inputs := rfl
@[simp] theorem State.push_tick (s : State) (w : Word) : (s.push w).tick = s.tick := rfl
@[simp] theorem State.push_rendererOut (s : State) (w : Word) : (s.push w).rendererOut = s.rendererOut := rfl

@[simp] theorem State.decay_mem (s : State) : (s.decay).mem = s.mem := rfl
@[simp] theorem State.decay_v (s : State) : (s.decay).v = s.v := rfl
@[simp] theorem State.decay_i (s : State) : (s.decay).i = s.i := rfl
@[simp] theorem State.decay_pc (s : State) : (s.decay).pc = s.pc := rfl
@[simp] theorem State.decay_stack (s : State) : (s.decay).stack = s.stack := rfl
@[simp] theorem State.decay_dt (s : State) : (s.decay).dt = satDec s.dt := rfl
@[simp] theorem State.decay_st (s : State) : (s.decay).st = satDec s.st := rfl
@[simp] theorem State.decay_fb (s : State) : (s.decay).fb = s.fb := rfl
@[simp] theorem State.decay_keys (s : State) : (s.decay).keys = s.keys := rfl
@[simp] theorem State.decay_mode (s : State) : (s.decay).mode = s.mode := rfl
@[simp] theorem State.decay_displayChanged (s : State) : (s.decay).displayChanged = s.displayChanged := rfl
@[simp] theorem State.decay_status (s : State) : (s.decay).status = s.status := rfl
@[simp] theorem State.decay_rand8 (s : State) : (s.decay).rand8 = s.rand8 := rfl
@[simp] theorem State.decay_inputs (s : State) : (s.decay).inputs = s.inputs := rfl
@[simp] theorem State.decay_tick (s : State) : (s.decay).tick = s.tick := rfl
@[simp] theorem State.decay_rendererOut (s : State) : (s.decay).rendererOut = s.rendererOut := rfl

@[simp] theorem State.advancePc_mem (s : State) : (s.advancePc).mem = s.mem := rfl
@[simp] theorem State.advancePc_v (s : State) : (s.advancePc).v = s.v := rfl
@[simp] theorem State.advancePc_i (s : State) : (s.advancePc).i = s.i := rfl
@[simp] theorem State.advancePc_pc (s : State) : (s.advancePc).pc = s.pc + 2#16 := rfl
@[simp] theorem State.advancePc_stack (s : State) : (s.advancePc).stack = s.stack := rfl
@[simp] theorem State.advancePc_dt (s : State) : (s.advancePc).dt = s.dt := rfl
@[simp] theorem State.advancePc_st (s : State) : (s.advancePc).st = s.st := rfl
@[simp] theorem State.advancePc_fb (s : State) : (s.advancePc).fb = s.fb := rfl
@[simp] theorem State.advancePc_keys (s : State) : (s.advancePc).keys = s.keys := rfl
@[simp] theorem State.advancePc_mode (s : State) : (s.advancePc).mode = s.mode := rfl
@[simp] theorem State.advancePc_displayChanged (s : State) : (s.advancePc).displayChanged = s.displayChanged := rfl
@[simp] theorem State.advancePc_status (s : State) : (s.advancePc).status = s.status := rfl
@[simp] theorem State.advancePc_rand8 (s : State) : (s.advancePc).rand8 = s.rand8 := rfl
@[simp] theorem State.advancePc_inputs (s : State) : (s.advancePc).inputs = s.inputs := rfl
@[simp] theorem State.advancePc_tick (s : State) : (s.advancePc).tick = s.tick := rfl
@[simp] theorem State.advancePc_rendererOut (s : State) : (s.advancePc).rendererOut = s.rendererOut := rfl

@[simp] theorem State.beginStep_mem (s : State) : (s.beginStep).mem = s.mem := rfl
@[simp] theorem State.beginStep_v (s : State) : (s.beginStep).v = s.v := rfl
@[simp] theorem State.beginStep_i (s : State) : (s.beginStep).i = s.i := rfl
@[simp] theorem State.beginStep_pc (s : State) : (s.beginStep).pc = s.pc := rfl
@[simp] theorem State.beginStep_stack (s : State) : (s.beginStep).stack = s.stack := rfl
@[simp] theorem State.beginStep_dt (s : State) : (s.beginStep).dt = s.dt := rfl
@[simp] theorem State.beginStep_st (s : State) : (s.beginStep).st = s.st := rfl
@[simp] theorem State.beginStep_fb (s : State) : (s.beginStep).fb = s.fb := rfl
@[simp] theorem State.beginStep_keys (s : State) : (s.beginStep).keys = s.nextInput.keys := rfl
@[simp] theorem State.beginStep_mode (s : State) : (s.beginStep).mode = s.mode := rfl
@[simp] theorem State.beginStep_displayChanged (s : State) : (s.beginStep).displayChanged = s.displayChanged := rfl
@[simp] theorem State.beginStep_status (s : State) : (s.beginStep).status = s.status := rfl
@[simp] theorem State.beginStep_rand8 (s : State) : (s.beginStep).rand8 = s.nextInput.rand8 := rfl
@[simp] theorem State.beginStep_inputs (s : State) : (s.beginStep).inputs = s.inputs.tail := rfl
@[simp] theorem State.beginStep_tick (s : State) : (s.beginStep).tick = s.tick + 1 := rfl
@[simp] theorem State.beginStep_rendererOut (s : State) : (s.beginStep).rendererOut = [] := rfl

@[simp] theorem State.raise_status (s : State) (i : Instr) (k : FatalKind) (n : Nat) :
    (s.raise i k n).status = .halted ⟨k, s.pc - 2#16, some (encode i), n⟩ := rfl
@[simp] theorem State.raise_pc (s : State) (i : Instr) (k : FatalKind) (n : Nat) : (s.raise i k n).pc = s.pc - 2#16 := rfl
@[simp] theorem State.raise_rendererOut (s : State) (i : Instr) (k : FatalKind) (n : Nat) : (s.raise i k n).rendererOut = [] := rfl
@[simp] theorem State.raise_mem (s : State) (i : Instr) (k : FatalKind) (n : Nat) : (s.raise i k n).mem = s.mem := rfl
@[simp] theorem State.raise_v (s : State) (i : Instr) (k : FatalKind) (n : Nat) : (s.raise i k n).v = s.v := rfl
@[simp] theorem State.raise_i (s : State) (i : Instr) (k : FatalKind) (n : Nat) : (s.raise i k n).i = s.i := rfl
@[simp] theorem State.raise_stack (s : State) (i : Instr) (k : FatalKind) (n : Nat) : (s.raise i k n).stack = s.stack := rfl
@[simp] theorem State.raise_dt (s : State) (i : Instr) (k : FatalKind) (n : Nat) : (s.raise i k n).dt = s.dt := rfl
@[simp] theorem State.raise_st (s : State) (i : Instr) (k : FatalKind) (n : Nat) : (s.raise i k n).st = s.st := rfl
@[simp] theorem State.raise_fb (s : State) (i : Instr) (k : FatalKind) (n : Nat) : (s.raise i k n).fb = s.fb := rfl
@[simp] theorem State.raise_keys (s : State) (i : Instr) (k : FatalKind) (n : Nat) : (s.raise i k n).keys = s.keys := rfl
@[simp] theorem State.raise_mode (s : State) (i : Instr) (k : FatalKind) (n : Nat) : (s.raise i k n).mode = s.mode := rfl
@[simp] theorem State.raise_displayChanged (s : State) (i : Instr) (k : FatalKind) (n : Nat) : (s.raise i k n).displayChanged = s.displayChanged := rfl
@[simp] theorem State.raise_rand8 (s : State) (i : Instr) (k : FatalKind) (n : Nat) : (s.raise i k n).rand8 = s.rand8 := rfl
@[simp] theorem State.raise_inputs (s : State) (i : Instr) (k : FatalKind) (n : Nat) : (s.raise i k n).inputs = s.inputs := rfl
@[simp] theorem State.raise_tick (s : State) (i : Instr) (k : FatalKind) (n : Nat) : (s.raise i k n).tick = s.tick := rfl

/-- Reading a register just written, or another one. -/
theorem State.getV_setV (s : State) (x r : Reg) (b : Byte) : (s.setV x b).getV r = if r = x then b else s.getV r := by
  simp only [State.getV, State.setV, Fin.getElem_fin, Vector.getElem_set, Fin.ext_iff, eq_comm]

/-- The result, then the flag: VF holds the flag whatever x is (42_alu.md R208). -/
theorem State.getV_setResultFlag (s : State) (x r : Reg) (a f : Byte) :
    (s.setResultFlag x a f).getV r = if r = vf then f else if r = x then a else s.getV r := by
  simp only [State.setResultFlag, State.getV_setV]

/-- `setResultFlag` writes registers alone. -/
theorem State.setResultFlag_frame (s : State) (x : Reg) (a f : Byte) :
    s.setResultFlag x a f = { s with v := (s.setResultFlag x a f).v } := rfl

end Sys2Proof.Machine
end

