-- ==== Sys2Proof/Laws/Memory.lean ====
section
/-! SUPPORT. Memory: every operation keeps the canonical form, a read after a write, stores of several bytes, the bounds check, the fetch. -/

namespace Sys2Proof.Machine

theorem cellsFrom_cons {lo a : Nat} {x : Byte} {rest : Memory} :
    cellsFrom lo ((a, x) :: rest) = true ↔ lo ≤ a ∧ a < Config.memSize ∧ x ≠ resetByte a ∧ cellsFrom (a + 1) rest = true := by
  simp [cellsFrom, and_assoc]

theorem cellsFrom_mono {lo hi : Nat} (h : lo ≤ hi) : ∀ {m : Memory}, cellsFrom hi m = true → cellsFrom lo m = true
  | [], _ => rfl
  | (a, x) :: rest, hm => by
    rw [cellsFrom_cons] at hm ⊢
    exact ⟨h.trans hm.1, hm.2⟩

/-- An address below every listed one reads as its reset byte. -/
theorem readByte_of_lt {lo a : Nat} (h : a < lo) : ∀ {m : Memory}, cellsFrom lo m = true → readByte m a = resetByte a
  | [], _ => rfl
  | (b, y) :: rest, hm => by
    rw [cellsFrom_cons] at hm
    have hb : ¬ a = b := by omega
    simp only [readByte, hb, if_false]
    exact readByte_of_lt (by omega) hm.2.2.2

theorem writeByte_cellsFrom {lo a : Nat} (x : Byte) (hl : lo ≤ a) (ha : a < Config.memSize) :
    ∀ {m : Memory}, cellsFrom lo m = true → cellsFrom lo (writeByte m a x) = true
  | [], _ => by
    simp only [writeByte]
    split
    · rfl
    · rw [cellsFrom_cons]; exact ⟨hl, ha, by assumption, rfl⟩
  | (b, y) :: rest, hm => by
    have hm' := hm
    rw [cellsFrom_cons] at hm
    obtain ⟨h1, h2, h3, h4⟩ := hm
    simp only [writeByte]
    split
    · split
      · exact hm'
      · rw [cellsFrom_cons, cellsFrom_cons]
        exact ⟨hl, ha, by assumption, by omega, h2, h3, h4⟩
    · split
      · split
        · exact cellsFrom_mono (by omega) h4
        · rw [cellsFrom_cons]
          refine ⟨hl, ha, by assumption, ?_⟩
          subst_vars; exact h4
      · rw [cellsFrom_cons]
        exact ⟨h1, h2, h3, writeByte_cellsFrom x (by omega) ha h4⟩

/-- A write of a byte that exists keeps the canonical form. -/
theorem writeByte_wf {m : Memory} {a : Nat} (x : Byte) (hm : m.wf = true) (ha : a < Config.memSize) : Memory.wf (writeByte m a x) = true :=
  writeByte_cellsFrom x (Nat.zero_le a) ha hm

/-- A write leaves every other address alone. -/
theorem readByte_writeByte_ne {a c : Nat} (x : Byte) (h : c ≠ a) : ∀ m : Memory, readByte (writeByte m a x) c = readByte m c
  | [] => by
    simp only [writeByte]
    split <;> simp [readByte, h]
  | (b, y) :: rest => by
    simp only [writeByte]
    split
    · split <;> simp [readByte, h]
    · split
      · split
        · subst_vars; simp [readByte, h]
        · subst_vars; simp [readByte, h]
      · simp only [readByte, readByte_writeByte_ne x h rest]

theorem readByte_writeByte_self {lo a : Nat} (x : Byte) : ∀ {m : Memory}, cellsFrom lo m = true → readByte (writeByte m a x) a = x
  | [], _ => by
    simp only [writeByte]
    split <;> simp_all [readByte]
  | (b, y) :: rest, hm => by
    have hm' := hm
    rw [cellsFrom_cons] at hm
    simp only [writeByte]
    split
    · split
      · rw [readByte_of_lt (lo := b) (by assumption) (cellsFrom_cons.mpr ⟨le_rfl, hm.2⟩)]; simp_all
      · simp [readByte]
    · split
      · split
        · rw [readByte_of_lt (lo := b + 1) (by omega) hm.2.2.2]; simp_all
        · simp [readByte]
      · have hb : ¬ a = b := by assumption
        simp only [readByte, hb, if_false]
        exact readByte_writeByte_self x hm.2.2.2

/-- A read after a write of one byte. -/
theorem readByte_writeByte {m : Memory} (a c : Nat) (x : Byte) (hm : m.wf = true) :
    readByte (writeByte m a x) c = if c = a then x else readByte m c := by
  split
  · subst_vars; exact readByte_writeByte_self x hm
  · exact readByte_writeByte_ne x (by assumption) m

/-- Consecutive stores keep the canonical form. -/
theorem storeBytes_wf : ∀ (l : List Byte) {m : Memory} {a : Nat}, m.wf = true → a + l.length ≤ Config.memSize →
    Memory.wf (storeBytes m a l) = true
  | [], _, _, hm, _ => hm
  | x :: rest, m, a, hm, h => by
    simp only [List.length_cons] at h
    exact storeBytes_wf rest (writeByte_wf x hm (by omega)) (by omega)

/-- What consecutive stores leave unchanged: every address outside the stored range. -/
theorem readByte_storeBytes_outside : ∀ (l : List Byte) (m : Memory) (a c : Nat), c < a ∨ a + l.length ≤ c →
    readByte (storeBytes m a l) c = readByte m c
  | [], _, _, _, _ => rfl
  | x :: rest, m, a, c, h => by
    simp only [List.length_cons] at h
    simp only [storeBytes]
    rw [readByte_storeBytes_outside rest _ _ _ (by omega), readByte_writeByte_ne x (by omega)]

/-- What consecutive stores write: byte `k` at `a + k`. -/
theorem readByte_storeBytes : ∀ (l : List Byte) {m : Memory} {a : Nat}, m.wf = true → a + l.length ≤ Config.memSize →
    ∀ (k : Nat) (hk : k < l.length), readByte (storeBytes m a l) (a + k) = l[k]
  | [], _, _, _, _, k, hk => absurd hk (Nat.not_lt_zero k)
  | x :: rest, m, a, hm, h, k, hk => by
    simp only [List.length_cons] at h hk
    simp only [storeBytes]
    cases k with
    | zero =>
      rw [readByte_storeBytes_outside rest _ _ _ (by omega), readByte_writeByte _ _ _ hm]
      simp
    | succ k =>
      have := readByte_storeBytes rest (writeByte_wf x hm (a := a) (by omega)) (a := a + 1) (by omega) k (by omega)
      rw [show a + (k + 1) = a + 1 + k by omega, this]
      simp

/-- The bounds check passes exactly when every access is below 4096. -/
theorem rangeFault_eq_none {a n : Nat} : rangeFault a n = none ↔ n = 0 ∨ a + n ≤ Config.memSize := by
  simp only [rangeFault]
  split <;> simp_all <;> omega

/-- Where it fails it names `max(a, 4096)`, the lowest address of the range that is out of bounds (43_index_memory.md R240). -/
theorem rangeFault_eq_some {a n e : Nat} :
    rangeFault a n = some e ↔ 0 < n ∧ Config.memSize < a + n ∧ e = max a Config.memSize := by
  simp only [rangeFault]
  split <;> simp_all <;> omega

/-- The fetch, in its three cases (20_memory.md R66). -/
theorem fetchWord_cases (m : Memory) (pc : Nat) :
    (pc + 1 < Config.memSize ∧ fetchWord m pc = .ok (Word.ofBytes (readByte m pc) (readByte m (pc + 1)))) ∨
    (Config.memSize ≤ pc + 1 ∧ fetchWord m pc = .error (max pc Config.memSize)) := by
  by_cases h0 : Config.memSize ≤ pc
  · refine .inr ⟨by omega, ?_⟩
    simp [fetchWord, memRead, h0]
  · by_cases h1 : Config.memSize ≤ pc + 1
    · refine .inr ⟨h1, ?_⟩
      simp [fetchWord, memRead, h0, h1]; omega
    · refine .inl ⟨by omega, ?_⟩
      simp [fetchWord, memRead, h0, h1]

/-- The word a fetch in range reads. -/
theorem fetchWord_ok {m : Memory} {pc : Nat} (h : pc + 1 < Config.memSize) :
    fetchWord m pc = .ok (Word.ofBytes (readByte m pc) (readByte m (pc + 1))) := by
  rcases fetchWord_cases m pc with ⟨_, h'⟩ | ⟨h', _⟩
  · exact h'
  · omega

/-- A fetch out of range. -/
theorem fetchWord_error {m : Memory} {pc : Nat} (h : Config.memSize ≤ pc + 1) : fetchWord m pc = .error (max pc Config.memSize) := by
  rcases fetchWord_cases m pc with ⟨h', _⟩ | ⟨_, h'⟩
  · omega
  · exact h'

/-- A fetch that succeeds has pc at most 0xFFE. -/
theorem fetchWord_lt {m : Memory} {pc : Nat} {w : Word} (h : fetchWord m pc = .ok w) : pc + 1 < Config.memSize := by
  rcases fetchWord_cases m pc with ⟨h', _⟩ | ⟨_, h'⟩
  · exact h'
  · rw [h'] at h; cases h

/-- The two bytes of a word, joined again. -/
theorem ofBytes_hi_lo (w : Word) : Word.ofBytes w.hi w.lo = w := by
  apply BitVec.eq_of_getLsbD_eq
  intro k hk
  simp only [Word.ofBytes, Word.hi, Word.lo, BitVec.getLsbD_append, BitVec.getLsbD_extractLsb']
  by_cases h : k < 8
  · simp [h]
  · simp [h, show k - 8 < 8 by omega, show 8 + (k - 8) = k by omega]

/-- Fx65: the registers up to x come from memory, those above are kept (43_index_memory.md R246). -/
theorem loadRegs_get (m : Memory) (a : Nat) (x : Reg) (v : Vector Byte 16) (k : Fin 16) :
    (loadRegs m a x v)[k] = if k ≤ x then readByte m (a + k.val) else v[k] := by
  simp [loadRegs]

/-- The load port keeps the canonical form. -/
theorem loadImage_wf {image : List Byte} {s t : State} (hs : Memory.wf s.mem = true) (h : loadImage image s = some t) :
    Memory.wf t.mem = true := by
  simp only [loadImage] at h
  split at h
  · cases h; exact storeBytes_wf image hs (by assumption)
  · cases h

/-- Placing a word for the next fetch keeps the canonical form. -/
theorem placeWord_wf {s : State} (w : Word) (hs : Memory.wf s.mem = true) : Memory.wf (s.placeWord w).mem = true := by
  simp only [State.placeWord]
  refine storeBytes_wf _ hs ?_
  split
  · simp only [List.length_cons, List.length_nil]; omega
  · exact (by decide : 0x200 + 2 ≤ 4096)

end Sys2Proof.Machine
end

