-- ==== Sys2Proof/Laws/Cycle.lean ====
section
/-! SUPPORT. The parts of a step: the timers, the key scan, the end of a step, and the one lemma that says what a step that answers a next state has done. -/

namespace Sys2Proof.Machine

/-- A timer counts down and stays at zero (40_cycle.md R142). -/
theorem satDec_toNat (b : Byte) : (satDec b).toNat = b.toNat - 1 := by
  simp only [satDec]
  split
  · subst_vars; rfl
  · rename_i h
    have : b.toNat ≠ 0 := fun h' => h (BitVec.eq_of_toNat_eq h')
    have := b.isLt
    rw [BitVec.toNat_sub]
    simp only [BitVec.toNat_ofNat]
    omega

/-- The scan finds the lowest key that is held (40_cycle.md R143). -/
theorem lowestKey_eq_some {keys : Keys} {k : Fin 16} :
    lowestKey keys = some k ↔ keys[k] = true ∧ ∀ j < k, keys[j] = false := by
  simp only [lowestKey, List.find?_eq_some_iff_getElem, List.length_finRange, List.getElem_finRange]
  constructor
  · rintro ⟨hk, i, hi, he, hlt⟩
    refine ⟨hk, fun j hj => ?_⟩
    have hji : j.val < i := by
      have := congrArg Fin.val he
      simp at this; omega
    have := hlt j.val hji
    simpa using this
  · rintro ⟨hk, hlt⟩
    refine ⟨hk, k.val, k.isLt, rfl, fun j hj => ?_⟩
    have := hlt ⟨j, by omega⟩ hj
    simpa using this

/-- The scan finds nothing exactly when no key is held. -/
theorem lowestKey_eq_none {keys : Keys} : lowestKey keys = none ↔ ∀ k : Fin 16, keys[k] = false := by
  simp [lowestKey]

/-- The end of a step that raised a fatal condition. -/
theorem State.endStep_halted {s : State} {r : FatalRecord} (h : s.status = .halted r) : s.endStep = s := by
  simp [State.endStep, h]

/-- The end of a step after a change of the display. -/
theorem State.endStep_changed {s : State} (h : s.status = .ok) (hd : s.displayChanged = true) :
    s.endStep = { s with rendererOut := s.rendererOut ++ [.present s.fb], displayChanged := false } := by
  simp [State.endStep, h, hd, State.signal]

/-- The end of a step without one. -/
theorem State.endStep_unchanged {s : State} (hd : s.displayChanged = false) : s.endStep = s := by
  simp only [State.endStep, hd]
  split <;> rfl

/-- The end of a step writes the signals to the renderer and the display-changed flag alone. -/
theorem State.endStep_frame (s : State) :
    s.endStep = { s with rendererOut := s.endStep.rendererOut, displayChanged := s.endStep.displayChanged } := by
  simp only [State.endStep]
  split
  · rfl
  · split <;> rfl

@[simp] theorem State.endStep_mem (s : State) : s.endStep.mem = s.mem := by rw [State.endStep_frame]
@[simp] theorem State.endStep_v (s : State) : s.endStep.v = s.v := by rw [State.endStep_frame]
@[simp] theorem State.endStep_i (s : State) : s.endStep.i = s.i := by rw [State.endStep_frame]
@[simp] theorem State.endStep_pc (s : State) : s.endStep.pc = s.pc := by rw [State.endStep_frame]
@[simp] theorem State.endStep_stack (s : State) : s.endStep.stack = s.stack := by rw [State.endStep_frame]
@[simp] theorem State.endStep_dt (s : State) : s.endStep.dt = s.dt := by rw [State.endStep_frame]
@[simp] theorem State.endStep_st (s : State) : s.endStep.st = s.st := by rw [State.endStep_frame]
@[simp] theorem State.endStep_fb (s : State) : s.endStep.fb = s.fb := by rw [State.endStep_frame]
@[simp] theorem State.endStep_keys (s : State) : s.endStep.keys = s.keys := by rw [State.endStep_frame]
@[simp] theorem State.endStep_mode (s : State) : s.endStep.mode = s.mode := by rw [State.endStep_frame]
@[simp] theorem State.endStep_status (s : State) : s.endStep.status = s.status := by rw [State.endStep_frame]
@[simp] theorem State.endStep_rand8 (s : State) : s.endStep.rand8 = s.rand8 := by rw [State.endStep_frame]
@[simp] theorem State.endStep_inputs (s : State) : s.endStep.inputs = s.inputs := by rw [State.endStep_frame]
@[simp] theorem State.endStep_tick (s : State) : s.endStep.tick = s.tick := by rw [State.endStep_frame]

/-- The decoder's Unknown carries the word it was given (30_encoding.md R96). -/
theorem decode_unknown {w u : Word} (h : decode w = .unknown u) : u = w := by
  simp only [decode, decodeWith, decodeGroup0, decodeGroup8, decodeGroupE, decodeGroupF, decodeLowNibbleFree, lenient59] at h
  repeat' split at h
  all_goals first | (cases h; rfl) | cases h

/-- What a step that answers a next state has done: the machine was not halted, and it was a scan of the keys, a fetch out of range, an
unknown word, or one instruction (40_cycle.md R149). -/
theorem step_next {s t : State} (h : step s = .next t) : s.status = .ok ∧
    ((∃ k, s.mode = .waitingForKey k ∧ t = waitCycle k s.beginStep) ∨
     (s.mode = .running ∧
      ((∃ a, fetchWord s.mem s.pc.toNat = .error a ∧ t = s.beginStep.decay.raiseFetch a) ∨
       (∃ w, fetchWord s.mem s.pc.toNat = .ok w ∧ decode w = .unknown w ∧ t = s.beginStep.decay.raiseUnknown w) ∨
       (∃ w i u, fetchWord s.mem s.pc.toNat = .ok w ∧ decode w = .known i ∧ exec i s.beginStep.decay.advancePc = .next u ∧
        t = u.endStep)))) := by
  simp only [step, cycle] at h
  split at h
  · cases h
  · rename_i hs
    refine ⟨hs, ?_⟩
    split at h
    · rename_i k hm
      cases h; exact .inl ⟨k, hm, rfl⟩
    · rename_i hm
      refine .inr ⟨hm, ?_⟩
      simp only [runCycle, State.decay_mem, State.decay_pc, State.beginStep_mem, State.beginStep_pc] at h
      split at h
      · rename_i a ha
        cases h; exact .inl ⟨a, ha, rfl⟩
      · rename_i w hw
        split at h
        · rename_i u hu
          cases decode_unknown hu
          cases h; exact .inr (.inl ⟨w, hw, hu, rfl⟩)
        · rename_i i hi
          split at h
          · rename_i u hu
            cases h; exact .inr (.inr ⟨w, i, u, hw, hi, hu, rfl⟩)
          · cases h
          · cases h

end Sys2Proof.Machine
end

