-- ==== Sys2Proof/Laws/Decode.lean ====
section
/-! SUPPORT. The fields of a word put together from fields: what the decoder reads back from each format of 30_encoding.md R92. -/

namespace Sys2Proof

@[simp] theorem topNibble_formatA (op : BitVec 4) (nnn : BitVec 12) : topNibble (formatA op nnn) = op := by
  apply BitVec.eq_of_getLsbD_eq
  intro k hk
  simp only [topNibble, formatA, BitVec.getLsbD_extractLsb', BitVec.getLsbD_append]
  interval_cases k <;> simp

@[simp] theorem fieldNNN_formatA (op : BitVec 4) (nnn : BitVec 12) : fieldNNN (formatA op nnn) = nnn := by
  apply BitVec.eq_of_getLsbD_eq
  intro k hk
  simp only [fieldNNN, formatA, BitVec.getLsbD_extractLsb', BitVec.getLsbD_append]
  interval_cases k <;> simp

@[simp] theorem topNibble_formatXB (op : BitVec 4) (x : Reg) (nn : Byte) : topNibble (formatXB op x nn) = op := by
  apply BitVec.eq_of_getLsbD_eq
  intro k hk
  simp only [topNibble, formatXB, BitVec.getLsbD_extractLsb', BitVec.getLsbD_append]
  interval_cases k <;> simp

@[simp] theorem fieldNN_formatXB (op : BitVec 4) (x : Reg) (nn : Byte) : fieldNN (formatXB op x nn) = nn := by
  apply BitVec.eq_of_getLsbD_eq
  intro k hk
  simp only [fieldNN, formatXB, BitVec.getLsbD_extractLsb', BitVec.getLsbD_append]
  interval_cases k <;> simp

theorem fieldX_formatXB_bits (op : BitVec 4) (x : Reg) (nn : Byte) : (formatXB op x nn).extractLsb' 8 4 = BitVec.ofFin x := by
  apply BitVec.eq_of_getLsbD_eq
  intro k hk
  simp only [formatXB, BitVec.getLsbD_extractLsb', BitVec.getLsbD_append]
  interval_cases k <;> simp

@[simp] theorem fieldX_formatXB (op : BitVec 4) (x : Reg) (nn : Byte) : fieldX (formatXB op x nn) = x :=
  congrArg BitVec.toFin (fieldX_formatXB_bits op x nn)

@[simp] theorem topNibble_formatXYN (op : BitVec 4) (x y : Reg) (n : BitVec 4) : topNibble (formatXYN op x y n) = op := by
  apply BitVec.eq_of_getLsbD_eq
  intro k hk
  simp only [topNibble, formatXYN, ofNibbles, BitVec.getLsbD_extractLsb', BitVec.getLsbD_append]
  interval_cases k <;> simp

@[simp] theorem fieldN_formatXYN (op : BitVec 4) (x y : Reg) (n : BitVec 4) : fieldN (formatXYN op x y n) = n := by
  apply BitVec.eq_of_getLsbD_eq
  intro k hk
  simp only [fieldN, formatXYN, ofNibbles, BitVec.getLsbD_extractLsb', BitVec.getLsbD_append]
  interval_cases k <;> simp

theorem fieldX_formatXYN_bits (op : BitVec 4) (x y : Reg) (n : BitVec 4) : (formatXYN op x y n).extractLsb' 8 4 = BitVec.ofFin x := by
  apply BitVec.eq_of_getLsbD_eq
  intro k hk
  simp only [formatXYN, ofNibbles, BitVec.getLsbD_extractLsb', BitVec.getLsbD_append]
  interval_cases k <;> simp

@[simp] theorem fieldX_formatXYN (op : BitVec 4) (x y : Reg) (n : BitVec 4) : fieldX (formatXYN op x y n) = x :=
  congrArg BitVec.toFin (fieldX_formatXYN_bits op x y n)

theorem fieldY_formatXYN_bits (op : BitVec 4) (x y : Reg) (n : BitVec 4) : (formatXYN op x y n).extractLsb' 4 4 = BitVec.ofFin y := by
  apply BitVec.eq_of_getLsbD_eq
  intro k hk
  simp only [formatXYN, ofNibbles, BitVec.getLsbD_extractLsb', BitVec.getLsbD_append]
  interval_cases k <;> simp

@[simp] theorem fieldY_formatXYN (op : BitVec 4) (x y : Reg) (n : BitVec 4) : fieldY (formatXYN op x y n) = y :=
  congrArg BitVec.toFin (fieldY_formatXYN_bits op x y n)

/-- A word is its four nibbles (00_scope.md R7). -/
theorem ofNibbles_fields (w : Word) :
    ofNibbles (topNibble w) (w.extractLsb' 8 4) (w.extractLsb' 4 4) (fieldN w) = w := by
  apply BitVec.eq_of_getLsbD_eq
  intro k hk
  simp only [ofNibbles, topNibble, fieldN, BitVec.getLsbD_extractLsb', BitVec.getLsbD_append]
  interval_cases k <;> simp

/-- A word of format A from its fields. -/
theorem formatA_fields (w : Word) : formatA (topNibble w) (fieldNNN w) = w := by
  apply BitVec.eq_of_getLsbD_eq
  intro k hk
  simp only [formatA, topNibble, fieldNNN, BitVec.getLsbD_extractLsb', BitVec.getLsbD_append]
  interval_cases k <;> simp

/-- A word of format XB from its fields. -/
theorem formatXB_fields (w : Word) : formatXB (topNibble w) (fieldX w) (fieldNN w) = w := by
  rw [show formatXB (topNibble w) (fieldX w) (fieldNN w)
    = (w.extractLsb' 12 4 ++ w.extractLsb' 8 4 ++ w.extractLsb' 0 8 : BitVec (4 + 4 + 8)) from rfl]
  apply BitVec.eq_of_getLsbD_eq
  intro k hk
  simp only [BitVec.getLsbD_extractLsb', BitVec.getLsbD_append]
  interval_cases k <;> simp

/-- A word of format XY or XYN from its fields. -/
theorem formatXYN_fields (w : Word) : formatXYN (topNibble w) (fieldX w) (fieldY w) (fieldN w) = w := ofNibbles_fields w

end Sys2Proof
end

