-- ==== Sys2Proof/Laws/Display.lean ====
section
/-! SUPPORT. What the XOR blit does to each pixel and when it collides: the loops of 44_display.md R273 in closed form. -/

namespace Sys2Proof.Machine

/-- No pixel of the grid lies right of column 63. -/
theorem pixel_of_le {fb : Framebuffer} {r c : Nat} (h : 64 ≤ c) : pixel fb r c = false := by
  simp [pixel, BitVec.getMsbD, Nat.not_lt.mpr h]

/-- One pixel inverted, every other one kept. -/
theorem pixel_flipPixel (fb : Framebuffer) {r c : Nat} (hr : r < 32) (hc : c < 64) (r' c' : Nat) :
    pixel (flipPixel fb r c) r' c' = (pixel fb r' c' ^^ decide (r' = r ∧ c' = c)) := by
  by_cases h : r' = r
  · subst h
    have e : (flipPixel fb r' c).getD r' 0#64 = fb.getD r' 0#64 ^^^ BitVec.twoPow 64 (63 - c) := by
      simp [flipPixel, Config.fbWidth, Vector.getD, hr]
    by_cases h' : c' < 64
    · simp only [pixel, e, BitVec.getMsbD_xor]
      congr 1
      by_cases hcc : c' = c
      · subst hcc; simp [BitVec.getMsbD, h']; omega
      · simp [BitVec.getMsbD, h', hcc]; omega
    · rw [pixel_of_le (by omega), pixel_of_le (by omega)]
      simp; omega
  · have e : (flipPixel fb r c).getD r' 0#64 = fb.getD r' 0#64 := by
      by_cases hr' : r' < 32
      · simp [flipPixel, Vector.getD, Array.getD, hr', Ne.symm h]
      · simp [flipPixel, Vector.getD, Array.getD, hr']
    simp [pixel, e, h]

/-- One sprite bit at one pixel: `old XOR bit` there (44_display.md R273). -/
theorem Blit.drawBit_pixel (p : Blit) {r c : Nat} (hr : r < 32) (hc : c < 64) (bit : Bool) (r' c' : Nat) :
    pixel (p.drawBit r c bit).fb r' c' = (pixel p.fb r' c' ^^ (decide (r' = r ∧ c' = c) && bit)) := by
  cases bit <;> simp [Blit.drawBit, pixel_flipPixel, hr, hc]

theorem Blit.drawBit_hit (p : Blit) (r c : Nat) (bit : Bool) : (p.drawBit r c bit).hit = (p.hit || (bit && pixel p.fb r c)) := by
  cases bit <;> simp [Blit.drawBit]

/-- The first `k` bits of a sprite row. -/
def Blit.drawRowPart (p : Blit) (r c0 : Nat) (row : Byte) (k : Nat) : Blit :=
  (List.range k).foldl (fun q b => if c0 + b < Config.fbWidth then q.drawBit r (c0 + b) (spriteBit row b) else q) p

theorem Blit.drawRowPart_succ (p : Blit) (r c0 : Nat) (row : Byte) (k : Nat) :
    p.drawRowPart r c0 row (k + 1) = if c0 + k < Config.fbWidth then (p.drawRowPart r c0 row k).drawBit r (c0 + k) (spriteBit row k)
      else p.drawRowPart r c0 row k := by
  simp [Blit.drawRowPart, List.range_succ, List.foldl_append]

theorem Blit.drawRowPart_pixel (p : Blit) {r : Nat} (hr : r < 32) (c0 : Nat) (row : Byte) (r' c' : Nat) :
    ∀ k, pixel (p.drawRowPart r c0 row k).fb r' c' =
      (pixel p.fb r' c' ^^ (decide (r' = r ∧ c0 ≤ c' ∧ c' < c0 + k ∧ c' < 64) && spriteBit row (c' - c0)))
  | 0 => by
    have : ¬ (r' = r ∧ c0 ≤ c' ∧ c' < c0 + 0 ∧ c' < 64) := by omega
    simp only [this, decide_false, Bool.false_and, Bool.xor_false]; rfl
  | k + 1 => by
    rw [Blit.drawRowPart_succ]
    have ih := Blit.drawRowPart_pixel p hr c0 row r' c' k
    split
    · rename_i hk
      rw [Blit.drawBit_pixel _ hr hk, ih, Bool.xor_assoc]
      congr 1
      by_cases hc : c' = c0 + k
      · subst hc
        have h1 : ¬ (r' = r ∧ c0 ≤ c0 + k ∧ c0 + k < c0 + k ∧ c0 + k < 64) := by omega
        have h2 : (r' = r ∧ c0 ≤ c0 + k ∧ c0 + k < c0 + (k + 1) ∧ c0 + k < 64) ↔ (r' = r ∧ c0 + k = c0 + k) := by
          simp only [Config.fbWidth] at hk; omega
        simp only [h1, h2, decide_false, Bool.false_and, Bool.false_xor, show c0 + k - c0 = k by omega]
      · have h1 : (r' = r ∧ c0 ≤ c' ∧ c' < c0 + (k + 1) ∧ c' < 64) ↔ (r' = r ∧ c0 ≤ c' ∧ c' < c0 + k ∧ c' < 64) := by omega
        simp only [h1, hc, and_false, decide_false, Bool.false_and, Bool.xor_false]
    · rename_i hk
      simp only [Config.fbWidth] at hk
      rw [ih]
      have h1 : (r' = r ∧ c0 ≤ c' ∧ c' < c0 + (k + 1) ∧ c' < 64) ↔ (r' = r ∧ c0 ≤ c' ∧ c' < c0 + k ∧ c' < 64) := by omega
      simp only [h1]

theorem Blit.drawRowPart_hit (p : Blit) {r : Nat} (hr : r < 32) (c0 : Nat) (row : Byte) :
    ∀ k, (p.drawRowPart r c0 row k).hit = true ↔
      p.hit = true ∨ ∃ b < k, c0 + b < 64 ∧ spriteBit row b = true ∧ pixel p.fb r (c0 + b) = true
  | 0 => by simp [Blit.drawRowPart]
  | k + 1 => by
    rw [Blit.drawRowPart_succ]
    have ih := Blit.drawRowPart_hit p hr c0 row k
    have hs : ∀ P : Nat → Prop, (∃ b < k + 1, P b) ↔ (∃ b < k, P b) ∨ P k := by
      intro P
      constructor
      · rintro ⟨b, hb, h⟩
        rcases Nat.lt_succ_iff_lt_or_eq.mp hb with h' | rfl
        · exact .inl ⟨b, h', h⟩
        · exact .inr h
      · rintro (⟨b, hb, h⟩ | h)
        · exact ⟨b, by omega, h⟩
        · exact ⟨k, by omega, h⟩
    rw [hs, ← or_assoc, ← ih]
    split
    · rename_i hk
      simp only [Config.fbWidth] at hk
      have e : pixel (p.drawRowPart r c0 row k).fb r (c0 + k) = pixel p.fb r (c0 + k) := by
        have : ¬ (r = r ∧ c0 ≤ c0 + k ∧ c0 + k < c0 + k ∧ c0 + k < 64) := by omega
        rw [Blit.drawRowPart_pixel p hr, decide_eq_false this, Bool.false_and, Bool.xor_false]
      simp only [Blit.drawBit_hit, e, Bool.or_eq_true, Bool.and_eq_true, hk, true_and]
    · rename_i hk
      simp only [Config.fbWidth] at hk
      simp [hk]

/-- One sprite row: each of its bits that is not clipped XORs its pixel. -/
theorem Blit.drawRow_pixel (p : Blit) {r : Nat} (hr : r < 32) (c0 : Nat) (row : Byte) (r' c' : Nat) :
    pixel (p.drawRow r c0 row).fb r' c' =
      (pixel p.fb r' c' ^^ (decide (r' = r ∧ c0 ≤ c' ∧ c' < c0 + 8 ∧ c' < 64) && spriteBit row (c' - c0))) :=
  Blit.drawRowPart_pixel p hr c0 row r' c' 8

/-- One sprite row: it collides when a 1-bit that is not clipped meets a pixel that is 1. -/
theorem Blit.drawRow_hit (p : Blit) {r : Nat} (hr : r < 32) (c0 : Nat) (row : Byte) :
    (p.drawRow r c0 row).hit = true ↔
      p.hit = true ∨ ∃ b < 8, c0 + b < 64 ∧ spriteBit row b = true ∧ pixel p.fb r (c0 + b) = true :=
  Blit.drawRowPart_hit p hr c0 row 8

theorem Blit.drawRows_succ (p : Blit) (m : Memory) (a r0 c0 k : Nat) :
    p.drawRows m a r0 c0 (k + 1) = (p.drawRows m a r0 c0 k).drawRow (r0 + k) c0 (readByte m (a + k)) := by
  simp [Blit.drawRows, List.range_succ, List.foldl_append]

/-- The whole blit, pixel by pixel (44_display.md R272, R273). -/
theorem Blit.drawRows_pixel (p : Blit) (m : Memory) (a r0 c0 : Nat) (r' c' : Nat) :
    ∀ k, r0 + k ≤ 32 → pixel (p.drawRows m a r0 c0 k).fb r' c' =
      (pixel p.fb r' c' ^^ (decide (r0 ≤ r' ∧ r' < r0 + k ∧ c0 ≤ c' ∧ c' < c0 + 8 ∧ c' < 64) &&
        spriteBit (readByte m (a + (r' - r0))) (c' - c0)))
  | 0, _ => by
    have : ¬ (r0 ≤ r' ∧ r' < r0 + 0 ∧ c0 ≤ c' ∧ c' < c0 + 8 ∧ c' < 64) := by omega
    simp only [this, decide_false, Bool.false_and, Bool.xor_false]; rfl
  | k + 1, h => by
    rw [Blit.drawRows_succ, Blit.drawRow_pixel _ (by omega), Blit.drawRows_pixel p m a r0 c0 r' c' k (by omega), Bool.xor_assoc]
    congr 1
    by_cases hr : r' = r0 + k
    · subst hr
      have h1 : ¬ (r0 ≤ r0 + k ∧ r0 + k < r0 + k ∧ c0 ≤ c' ∧ c' < c0 + 8 ∧ c' < 64) := by omega
      have h2 : (r0 ≤ r0 + k ∧ r0 + k < r0 + (k + 1) ∧ c0 ≤ c' ∧ c' < c0 + 8 ∧ c' < 64) ↔
          (r0 + k = r0 + k ∧ c0 ≤ c' ∧ c' < c0 + 8 ∧ c' < 64) := by omega
      simp only [h1, h2, decide_false, Bool.false_and, Bool.false_xor, show r0 + k - r0 = k by omega]
    · have h1 : (r0 ≤ r' ∧ r' < r0 + (k + 1) ∧ c0 ≤ c' ∧ c' < c0 + 8 ∧ c' < 64) ↔
          (r0 ≤ r' ∧ r' < r0 + k ∧ c0 ≤ c' ∧ c' < c0 + 8 ∧ c' < 64) := by omega
      simp only [h1, hr, false_and, decide_false, Bool.false_and, Bool.xor_false]

/-- The collision flag: some drawn 1-bit met a pixel that was 1 before the instruction (44_display.md R274). -/
theorem Blit.drawRows_hit (p : Blit) (m : Memory) (a r0 c0 : Nat) :
    ∀ k, r0 + k ≤ 32 → ((p.drawRows m a r0 c0 k).hit = true ↔
      p.hit = true ∨ ∃ r < k, ∃ b < 8, c0 + b < 64 ∧ spriteBit (readByte m (a + r)) b = true ∧ pixel p.fb (r0 + r) (c0 + b) = true)
  | 0, _ => by simp [Blit.drawRows]
  | k + 1, h => by
    rw [Blit.drawRows_succ, Blit.drawRow_hit _ (by omega), Blit.drawRows_hit p m a r0 c0 k (by omega), or_assoc]
    refine or_congr Iff.rfl ?_
    have hp : ∀ c', pixel (p.drawRows m a r0 c0 k).fb (r0 + k) c' = pixel p.fb (r0 + k) c' := by
      intro c'
      have : ¬ (r0 ≤ r0 + k ∧ r0 + k < r0 + k ∧ c0 ≤ c' ∧ c' < c0 + 8 ∧ c' < 64) := by omega
      rw [Blit.drawRows_pixel p m a r0 c0 _ _ k (by omega)]
      simp only [this, decide_false, Bool.false_and, Bool.xor_false]
    simp only [hp]
    constructor
    · rintro (⟨r, hr, hb⟩ | hb)
      · exact ⟨r, by omega, hb⟩
      · exact ⟨k, by omega, hb⟩
    · rintro ⟨r, hr, hb⟩
      rcases Nat.lt_succ_iff_lt_or_eq.mp hr with h' | rfl
      · exact .inl ⟨r, h', hb⟩
      · exact .inr hb

/-- Two framebuffers with the same pixels are the same. -/
theorem Framebuffer.ext_pixel {a b : Framebuffer} (h : ∀ r < 32, ∀ c < 64, pixel a r c = pixel b r c) : a = b := by
  apply Vector.ext
  intro r hr
  apply BitVec.eq_of_getMsbD_eq
  intro c hc
  have := h r hr c hc
  simpa [pixel, Vector.getD, hr] using this

end Sys2Proof.Machine
end

