-- ==== Sys2Proof/Laws/Exec.lean ====
section
/-! SUPPORT. For each instruction with more than one outcome, what it has done when it answers a next state; for the others exec is an equation by rfl. With them: the values of the flags, and reading a register through its index. -/

namespace Sys2Proof.Machine

/-- A register read by its index is `getV`. -/
theorem State.getElem_v (s : State) (r : Reg) : s.v[r] = s.getV r := rfl

/-- A flag is 1 or 0. -/
theorem flagByte_toNat (p : Prop) [Decidable p] : (flagByte (decide p)).toNat = if p then 1 else 0 := by
  by_cases h : p <;> simp [flagByte, h]

theorem flagByte_eq_one (b : Bool) : flagByte b = 1#8 ↔ b = true := by
  cases b <;> simp [flagByte]

/-- The low nibble of a byte. -/
theorem and_0xF_toNat (b : Byte) : (b &&& 0xF#8).toNat = b.toNat % 16 := by
  rw [BitVec.toNat_and]; exact Nat.and_two_pow_sub_one_eq_mod b.toNat 4

/-- The value of two bytes joined. -/
theorem ofBytes_toNat (hi lo : Byte) : (Word.ofBytes hi lo).toNat = 256 * hi.toNat + lo.toNat := by
  simp only [Word.ofBytes, BitVec.toNat_append]
  rw [← Nat.shiftLeft_add_eq_or_of_lt lo.isLt, Nat.shiftLeft_eq]; omega

/-- RET: an empty stack is raised, else the last entry goes to pc (41_control.md R171). -/
theorem execRet_cases {s t : State} (h : exec .ret s = .next t) :
    (s.stack = [] ∧ t = s.raise .ret .stackUnderflow 0) ∨ (∃ l w, s.stack = l ++ [w] ∧ t = (s.setStack l).setPc w) := by
  simp only [exec, execRet] at h
  split at h
  · rename_i hs
    cases h; exact .inl ⟨List.getLast?_eq_none_iff.mp hs, rfl⟩
  · rename_i w hs
    cases h
    exact .inr ⟨s.stack.dropLast, w, by
      obtain ⟨l, hl⟩ := List.getLast?_eq_some_iff.mp hs
      simp [hl], rfl⟩

/-- CALL: overflow at capacity, else push and jump (41_control.md R173). -/
theorem execCall_cases {nnn : BitVec 12} {s t : State} (h : exec (.call nnn) s = .next t) :
    (stackDepth ≤ s.stack.length ∧ t = s.raise (.call nnn) .stackOverflow stackDepth) ∨
    (s.stack.length < stackDepth ∧ t = (s.push s.pc).setPc (zextAddr nnn)) := by
  simp only [exec, execCall] at h
  split at h
  · cases h; exact .inl ⟨by assumption, rfl⟩
  · cases h; exact .inr ⟨by omega, rfl⟩

/-- Fx33: the range, else the three digits (43_index_memory.md R244). -/
theorem execLdB_cases {x : Reg} {s t : State} (h : exec (.ldB x) s = .next t) :
    (Config.memSize < s.i.toNat + 3 ∧ t = s.raise (.ldB x) .memoryOutOfRange (max s.i.toNat Config.memSize)) ∨
    (s.i.toNat + 3 ≤ Config.memSize ∧ t = s.setMem (storeBytes s.mem s.i.toNat (bcdDigits (s.getV x)))) := by
  simp only [exec, execLdB] at h
  split at h
  · rename_i a ha
    obtain ⟨-, h1, rfl⟩ := rangeFault_eq_some.mp ha
    cases h; exact .inl ⟨h1, rfl⟩
  · rename_i ha
    cases h; exact .inr ⟨by rcases rangeFault_eq_none.mp ha with h | h <;> omega, rfl⟩

/-- Fx55: the range, else V0 to Vx stored (43_index_memory.md R245). -/
theorem execLdMemX_cases {x : Reg} {s t : State} (h : exec (.ldMemX x) s = .next t) :
    (Config.memSize < s.i.toNat + (x.val + 1) ∧ t = s.raise (.ldMemX x) .memoryOutOfRange (max s.i.toNat Config.memSize)) ∨
    (s.i.toNat + (x.val + 1) ≤ Config.memSize ∧ t = s.setMem (storeBytes s.mem s.i.toNat (s.v.toList.take (x.val + 1)))) := by
  simp only [exec, execLdMemX] at h
  split at h
  · rename_i a ha
    obtain ⟨-, h1, rfl⟩ := rangeFault_eq_some.mp ha
    cases h; exact .inl ⟨h1, rfl⟩
  · rename_i ha
    cases h; exact .inr ⟨by rcases rangeFault_eq_none.mp ha with h | h <;> omega, rfl⟩

/-- Fx65: the range, else V0 to Vx loaded (43_index_memory.md R246). -/
theorem execLdXMem_cases {x : Reg} {s t : State} (h : exec (.ldXMem x) s = .next t) :
    (Config.memSize < s.i.toNat + (x.val + 1) ∧ t = s.raise (.ldXMem x) .memoryOutOfRange (max s.i.toNat Config.memSize)) ∨
    (s.i.toNat + (x.val + 1) ≤ Config.memSize ∧ t = s.setRegs (loadRegs s.mem s.i.toNat x s.v)) := by
  simp only [exec, execLdXMem] at h
  split at h
  · rename_i a ha
    obtain ⟨-, h1, rfl⟩ := rangeFault_eq_some.mp ha
    cases h; exact .inl ⟨h1, rfl⟩
  · rename_i ha
    cases h; exact .inr ⟨by rcases rangeFault_eq_none.mp ha with h | h <;> omega, rfl⟩

/-- The blit DRW makes in a state (44_display.md R273). -/
def drwBlit (x y : Reg) (n : BitVec 4) (s : State) : Blit :=
  Blit.drawRows { fb := s.fb, hit := false } s.mem s.i.toNat (startRow (s.getV y)) (startColumn (s.getV x))
    (drawnRows n (startRow (s.getV y)))

/-- DRW: the range of the rows drawn, else the blit and its collision flag (44_display.md R273). -/
theorem execDrw_cases {x y : Reg} {n : BitVec 4} {s t : State} (h : exec (.drw x y n) s = .next t) :
    (0 < drawnRows n (startRow (s.getV y)) ∧ Config.memSize < s.i.toNat + drawnRows n (startRow (s.getV y)) ∧
      t = s.raise (.drw x y n) .memoryOutOfRange (max s.i.toNat Config.memSize)) ∨
    ((drawnRows n (startRow (s.getV y)) = 0 ∨ s.i.toNat + drawnRows n (startRow (s.getV y)) ≤ Config.memSize) ∧
      t = (s.setV vf (flagByte (drwBlit x y n s).hit)).setFb (drwBlit x y n s).fb) := by
  simp only [exec, execDrw] at h
  split at h
  · rename_i a ha
    obtain ⟨h0, h1, rfl⟩ := rangeFault_eq_some.mp ha
    cases h; exact .inl ⟨h0, h1, rfl⟩
  · rename_i ha
    cases h; exact .inr ⟨rangeFault_eq_none.mp ha, rfl⟩

/-- The rows drawn stay inside the grid. -/
theorem startRow_add_drawnRows (n : BitVec 4) (b : Byte) : startRow b + drawnRows n (startRow b) ≤ 32 := by
  simp only [startRow, drawnRows, Config.fbHeight]
  omega

/-- SKP and SKNP: an index out of range under `fault`, else a skip (45_timers_keys.md R290 to R292). -/
theorem skipOnKey_cases (m : Config.KeyIndexMode) (held : Bool) (i : Instr) (x : Reg) (s : State) :
    (m = .fault ∧ 15 < (s.getV x).toNat ∧ skipOnKey m held i x s = s.raise i .keyIndexOutOfRange (s.getV x).toNat) ∨
    (∃ k : Fin 16, k.val = (s.getV x).toNat % 16 ∧ skipOnKey m held i x s = s.skipIf (s.keys[k] == held)) := by
  have hk : (Fin.ofNat 16 (s.getV x &&& 0xF#8).toNat).val = (s.getV x).toNat % 16 := by
    rw [and_0xF_toNat]; simp
  cases m with
  | mask => exact .inr ⟨_, hk, rfl⟩
  | fault =>
    by_cases h : 15 < (s.getV x).toNat
    · refine .inl ⟨rfl, h, ?_⟩
      have e : keyIndex .fault (s.getV x) = none := if_pos h
      simp only [skipOnKey, e]
    · refine .inr ⟨Fin.ofNat 16 (s.getV x).toNat, rfl, ?_⟩
      have e : keyIndex .fault (s.getV x) = some (Fin.ofNat 16 (s.getV x).toNat) := if_neg h
      simp only [skipOnKey, e]

/-- The open capacity lies in 12 to 16 (92_eei_decisions.md D7; log entry 7). -/
theorem stackDepth_bounds : 12 ≤ stackDepth ∧ stackDepth ≤ 16 := by
  have := Config.stackDepthChoice.isLt
  simp only [stackDepth]; omega

/-- An instruction that halts the machine has raised, before any effect of its own (60_exceptions.md R323, R324). -/
theorem exec_halts {i : Instr} {s t : State} {r : FatalRecord} (h : exec i s = .next t) (hs : s.status = .ok)
    (ht : t.status = .halted r) : ∃ k n, t = s.raise i k n := by
  have ok : ∀ {u : State}, u.status = .ok → t = u → False := by rintro u hu rfl; rw [hu] at ht; cases ht
  cases i
  case ret =>
    rcases execRet_cases h with ⟨_, h⟩ | ⟨_, _, _, h⟩
    · exact ⟨_, _, h⟩
    · exact (ok (by simpa using hs) h).elim
  case call =>
    rcases execCall_cases h with ⟨_, h⟩ | ⟨_, h⟩
    · exact ⟨_, _, h⟩
    · exact (ok (by simpa using hs) h).elim
  case ldB =>
    rcases execLdB_cases h with ⟨_, h⟩ | ⟨_, h⟩
    · exact ⟨_, _, h⟩
    · exact (ok (by simpa using hs) h).elim
  case ldMemX =>
    rcases execLdMemX_cases h with ⟨_, h⟩ | ⟨_, h⟩
    · exact ⟨_, _, h⟩
    · exact (ok (by simpa using hs) h).elim
  case ldXMem =>
    rcases execLdXMem_cases h with ⟨_, h⟩ | ⟨_, h⟩
    · exact ⟨_, _, h⟩
    · exact (ok (by simpa using hs) h).elim
  case drw =>
    rcases execDrw_cases h with ⟨_, _, h⟩ | ⟨_, h⟩
    · exact ⟨_, _, h⟩
    · exact (ok (by simpa using hs) h).elim
  case skp x =>
    rcases skipOnKey_cases keyIndexMode true (.skp x) x s with ⟨_, _, e⟩ | ⟨_, _, e⟩
    · simp only [exec, execSkp, e] at h; cases h; exact ⟨_, _, rfl⟩
    · simp only [exec, execSkp, e] at h; cases h; exact (ok (u := s.skipIf _) (by simpa using hs) rfl).elim
  case sknp x =>
    rcases skipOnKey_cases keyIndexMode false (.sknp x) x s with ⟨_, _, e⟩ | ⟨_, _, e⟩
    · simp only [exec, execSknp, e] at h; cases h; exact ⟨_, _, rfl⟩
    · simp only [exec, execSknp, e] at h; cases h; exact (ok (u := s.skipIf _) (by simpa using hs) rfl).elim
  all_goals (cases h; simp [State.setResultFlag, hs] at ht)

end Sys2Proof.Machine
end

