-- ==== Sys2Proof/Laws/PerInstr.lean ====
section
/-! SUPPORT. Statements about every instruction as syntax, one lemma a constructor. TableRow: the word the encoder gives an instruction matches the row of spec/opcode_table.json that carries its mnemonic. -/

namespace Sys2Proof.Laws.TableRow

/-- The encoded word of `i` matches `i`'s own row of the opcode table (30_encoding.md R95). -/
def Statement (i : Instr) : Prop := ∃ row ∈ opcodeTable, row.mnemonic = mnemonic i ∧ encode i &&& row.mask = row.value

theorem formatA_mask (op : BitVec 4) (nnn : BitVec 12) : formatA op nnn &&& 0xF000#16 = formatA op 0#12 := by
  apply BitVec.eq_of_getLsbD_eq
  intro k hk
  simp only [formatA, BitVec.getLsbD_and, BitVec.getLsbD_append]
  interval_cases k <;> simp

theorem formatXB_mask (op : BitVec 4) (x : Reg) (nn : Byte) : formatXB op x nn &&& 0xF000#16 = formatXB op 0 0#8 := by
  apply BitVec.eq_of_getLsbD_eq
  intro k hk
  simp only [formatXB, BitVec.getLsbD_and, BitVec.getLsbD_append]
  interval_cases k <;> simp

theorem formatXB_mask_low (op : BitVec 4) (x : Reg) (nn : Byte) : formatXB op x nn &&& 0xF0FF#16 = formatXB op 0 nn := by
  apply BitVec.eq_of_getLsbD_eq
  intro k hk
  simp only [formatXB, BitVec.getLsbD_and, BitVec.getLsbD_append]
  interval_cases k <;> simp

theorem formatXYN_mask (op : BitVec 4) (x y : Reg) (n : BitVec 4) : formatXYN op x y n &&& 0xF000#16 = formatXYN op 0 0 0#4 := by
  apply BitVec.eq_of_getLsbD_eq
  intro k hk
  simp only [formatXYN, ofNibbles, BitVec.getLsbD_and, BitVec.getLsbD_append]
  interval_cases k <;> simp

theorem formatXYN_mask_low (op : BitVec 4) (x y : Reg) (n : BitVec 4) : formatXYN op x y n &&& 0xF00F#16 = formatXYN op 0 0 n := by
  apply BitVec.eq_of_getLsbD_eq
  intro k hk
  simp only [formatXYN, ofNibbles, BitVec.getLsbD_and, BitVec.getLsbD_append]
  interval_cases k <;> simp

theorem cls : Statement .cls :=
  ⟨⟨"CLS", 0xFFFF#16, 0x00E0#16⟩, by decide, rfl, by decide⟩

theorem ret : Statement .ret :=
  ⟨⟨"RET", 0xFFFF#16, 0x00EE#16⟩, by decide, rfl, by decide⟩

theorem jp (nnn : BitVec 12) : Statement (.jp nnn) :=
  ⟨⟨"JP", 0xF000#16, 0x1000#16⟩, by decide, rfl, (formatA_mask _ _).trans (by decide)⟩

theorem call (nnn : BitVec 12) : Statement (.call nnn) :=
  ⟨⟨"CALL", 0xF000#16, 0x2000#16⟩, by decide, rfl, (formatA_mask _ _).trans (by decide)⟩

theorem seImm (x : Reg) (nn : Byte) : Statement (.seImm x nn) :=
  ⟨⟨"SE_imm", 0xF000#16, 0x3000#16⟩, by decide, rfl, (formatXB_mask _ _ _).trans (by decide)⟩

theorem sneImm (x : Reg) (nn : Byte) : Statement (.sneImm x nn) :=
  ⟨⟨"SNE_imm", 0xF000#16, 0x4000#16⟩, by decide, rfl, (formatXB_mask _ _ _).trans (by decide)⟩

theorem seReg (x y : Reg) : Statement (.seReg x y) :=
  ⟨⟨"SE_reg", 0xF000#16, 0x5000#16⟩, by decide, rfl, (formatXYN_mask _ _ _ _).trans (by decide)⟩

theorem ldImm (x : Reg) (nn : Byte) : Statement (.ldImm x nn) :=
  ⟨⟨"LD_imm", 0xF000#16, 0x6000#16⟩, by decide, rfl, (formatXB_mask _ _ _).trans (by decide)⟩

theorem addImm (x : Reg) (nn : Byte) : Statement (.addImm x nn) :=
  ⟨⟨"ADD_imm", 0xF000#16, 0x7000#16⟩, by decide, rfl, (formatXB_mask _ _ _).trans (by decide)⟩

theorem ldReg (x y : Reg) : Statement (.ldReg x y) :=
  ⟨⟨"LD_reg", 0xF00F#16, 0x8000#16⟩, by decide, rfl, (formatXYN_mask_low _ _ _ _).trans (by decide)⟩

theorem orReg (x y : Reg) : Statement (.orReg x y) :=
  ⟨⟨"OR", 0xF00F#16, 0x8001#16⟩, by decide, rfl, (formatXYN_mask_low _ _ _ _).trans (by decide)⟩

theorem andReg (x y : Reg) : Statement (.andReg x y) :=
  ⟨⟨"AND", 0xF00F#16, 0x8002#16⟩, by decide, rfl, (formatXYN_mask_low _ _ _ _).trans (by decide)⟩

theorem xorReg (x y : Reg) : Statement (.xorReg x y) :=
  ⟨⟨"XOR", 0xF00F#16, 0x8003#16⟩, by decide, rfl, (formatXYN_mask_low _ _ _ _).trans (by decide)⟩

theorem addReg (x y : Reg) : Statement (.addReg x y) :=
  ⟨⟨"ADD_reg", 0xF00F#16, 0x8004#16⟩, by decide, rfl, (formatXYN_mask_low _ _ _ _).trans (by decide)⟩

theorem sub (x y : Reg) : Statement (.sub x y) :=
  ⟨⟨"SUB", 0xF00F#16, 0x8005#16⟩, by decide, rfl, (formatXYN_mask_low _ _ _ _).trans (by decide)⟩

theorem shr (x y : Reg) : Statement (.shr x y) :=
  ⟨⟨"SHR", 0xF00F#16, 0x8006#16⟩, by decide, rfl, (formatXYN_mask_low _ _ _ _).trans (by decide)⟩

theorem subn (x y : Reg) : Statement (.subn x y) :=
  ⟨⟨"SUBN", 0xF00F#16, 0x8007#16⟩, by decide, rfl, (formatXYN_mask_low _ _ _ _).trans (by decide)⟩

theorem shl (x y : Reg) : Statement (.shl x y) :=
  ⟨⟨"SHL", 0xF00F#16, 0x800E#16⟩, by decide, rfl, (formatXYN_mask_low _ _ _ _).trans (by decide)⟩

theorem sneReg (x y : Reg) : Statement (.sneReg x y) :=
  ⟨⟨"SNE_reg", 0xF000#16, 0x9000#16⟩, by decide, rfl, (formatXYN_mask _ _ _ _).trans (by decide)⟩

theorem ldI (nnn : BitVec 12) : Statement (.ldI nnn) :=
  ⟨⟨"LD_I", 0xF000#16, 0xA000#16⟩, by decide, rfl, (formatA_mask _ _).trans (by decide)⟩

theorem jpV0 (nnn : BitVec 12) : Statement (.jpV0 nnn) :=
  ⟨⟨"JP_V0", 0xF000#16, 0xB000#16⟩, by decide, rfl, (formatA_mask _ _).trans (by decide)⟩

theorem rnd (x : Reg) (nn : Byte) : Statement (.rnd x nn) :=
  ⟨⟨"RND", 0xF000#16, 0xC000#16⟩, by decide, rfl, (formatXB_mask _ _ _).trans (by decide)⟩

theorem drw (x y : Reg) (n : BitVec 4) : Statement (.drw x y n) :=
  ⟨⟨"DRW", 0xF000#16, 0xD000#16⟩, by decide, rfl, (formatXYN_mask _ _ _ _).trans (by decide)⟩

theorem skp (x : Reg) : Statement (.skp x) :=
  ⟨⟨"SKP", 0xF0FF#16, 0xE09E#16⟩, by decide, rfl, (formatXB_mask_low _ _ _).trans (by decide)⟩

theorem sknp (x : Reg) : Statement (.sknp x) :=
  ⟨⟨"SKNP", 0xF0FF#16, 0xE0A1#16⟩, by decide, rfl, (formatXB_mask_low _ _ _).trans (by decide)⟩

theorem ldXDt (x : Reg) : Statement (.ldXDt x) :=
  ⟨⟨"LD_x_DT", 0xF0FF#16, 0xF007#16⟩, by decide, rfl, (formatXB_mask_low _ _ _).trans (by decide)⟩

theorem ldXK (x : Reg) : Statement (.ldXK x) :=
  ⟨⟨"LD_x_K", 0xF0FF#16, 0xF00A#16⟩, by decide, rfl, (formatXB_mask_low _ _ _).trans (by decide)⟩

theorem ldDtX (x : Reg) : Statement (.ldDtX x) :=
  ⟨⟨"LD_DT_x", 0xF0FF#16, 0xF015#16⟩, by decide, rfl, (formatXB_mask_low _ _ _).trans (by decide)⟩

theorem ldStX (x : Reg) : Statement (.ldStX x) :=
  ⟨⟨"LD_ST_x", 0xF0FF#16, 0xF018#16⟩, by decide, rfl, (formatXB_mask_low _ _ _).trans (by decide)⟩

theorem addI (x : Reg) : Statement (.addI x) :=
  ⟨⟨"ADD_I", 0xF0FF#16, 0xF01E#16⟩, by decide, rfl, (formatXB_mask_low _ _ _).trans (by decide)⟩

theorem ldF (x : Reg) : Statement (.ldF x) :=
  ⟨⟨"LD_F", 0xF0FF#16, 0xF029#16⟩, by decide, rfl, (formatXB_mask_low _ _ _).trans (by decide)⟩

theorem ldB (x : Reg) : Statement (.ldB x) :=
  ⟨⟨"LD_B", 0xF0FF#16, 0xF033#16⟩, by decide, rfl, (formatXB_mask_low _ _ _).trans (by decide)⟩

theorem ldMemX (x : Reg) : Statement (.ldMemX x) :=
  ⟨⟨"LD_mem_x", 0xF0FF#16, 0xF055#16⟩, by decide, rfl, (formatXB_mask_low _ _ _).trans (by decide)⟩

theorem ldXMem (x : Reg) : Statement (.ldXMem x) :=
  ⟨⟨"LD_x_mem", 0xF0FF#16, 0xF065#16⟩, by decide, rfl, (formatXB_mask_low _ _ _).trans (by decide)⟩

end Sys2Proof.Laws.TableRow
end

