-- ==== Sys2Proof/Laws/Safety.lean ====
section
/-! SUPPORT. The sprite's pixels as the blit draws them, and when a record of an access out of range is accurate. -/

namespace Sys2Proof.Machine

/-- Inside the grid, what a blit draws at a pixel is `spriteLit`. -/
theorem spriteLit_eq (m : Memory) (a r0 c0 n r : Nat) {c : Nat} (hc : c < 64) :
    spriteLit m a r0 c0 n r c =
      (decide (r0 ≤ r ∧ r < r0 + n ∧ c0 ≤ c ∧ c < c0 + 8 ∧ c < 64) && spriteBit (readByte m (a + (r - r0))) (c - c0)) := by
  simp [spriteLit, spriteBit, hc]

/-- The record of a data access out of range is accurate when its word is one of the four memory instructions. -/
theorem accurate_memoryOutOfRange {pc w : Word} {a : Nat} {x y : Reg} {n : BitVec 4}
    (h : decode w = .known (.drw x y n) ∨ decode w = .known (.ldB x) ∨ decode w = .known (.ldMemX x) ∨ decode w = .known (.ldXMem x)) :
    FatalRecord.Accurate ⟨.memoryOutOfRange, pc, some w, max a Config.memSize⟩ :=
  ⟨by simp only [Config.memSize]; omega, x, y, n, h⟩

end Sys2Proof.Machine
end

