-- ==== Sys2Proof/Tests/Slice0.lean ====
section
/-! SUPPORT. Tests with results from 95_test_vectors.md, and a witness for the hypotheses of each obligation that has any. -/

namespace Sys2Proof.Tests
open Sys2Proof.Machine

/-! ## Helpers -/

/-- What a test reads of an outcome; `d` where there is no next state. -/
def look {α : Type} (d : α) (f : State → α) (o : Host.Outcome State Fault Refusal) : α :=
  match o with
  | .next s => f s
  | _ => d

/-- A snapshot in which the keys listed are held. -/
def held (l : List Nat) : Keys := Vector.ofFn (fun k => l.contains k.val)

/-- The reset state with one snapshot and one random byte lined up, and the bytes `FF 81 3C` at 0x300 (95_test_vectors.md section 2.5). -/
def start (keys : List Nat) (rand8 : Byte) : State :=
  { State.reset with inputs := [{ keys := held keys, rand8 := rand8 }], i := 0x300#16,
                     mem := storeBytes [] 0x300 [0xFF#8, 0x81#8, 0x3C#8] }

/-- One step from `start` with `w` at 0x200 and the registers listed set. -/
def run1 (w : Word) (regs : List (Reg × Byte)) (s : State := start [] 0#8) : Host.Outcome State Fault Refusal :=
  step ((regs.foldl (fun t p => t.setV p.1 p.2) s).placeWord w)

/-- The bytes of memory from `a` on. -/
def bytesAt (s : State) (a n : Nat) : List Byte := (List.range n).map (fun k => readByte s.mem (a + k))

/-- The pixels of a row that are lit. -/
def litIn (s : State) (r : Nat) : List Nat := (List.range 64).filter (fun c => pixel s.fb r c)

/-! ## Decoding: the words of 95_test_vectors.md section 2.1, each written from its pattern in 30_encoding.md R95 -/

theorem test_decode_cls : decode 0x00E0#16 = .known .cls := by decide
theorem test_decode_ret : decode 0x00EE#16 = .known .ret := by decide
theorem test_decode_jp : decode 0x1ABC#16 = .known (.jp 0xABC#12) := by decide
theorem test_decode_call : decode 0x2FFF#16 = .known (.call 0xFFF#12) := by decide
theorem test_decode_seImm : decode 0x3A5B#16 = .known (.seImm 10 0x5B#8) := by decide
theorem test_decode_sneImm : decode 0x4A5B#16 = .known (.sneImm 10 0x5B#8) := by decide
theorem test_decode_seReg : decode 0x5AB0#16 = .known (.seReg 10 11) := by decide
theorem test_decode_ldImm : decode 0x6AFF#16 = .known (.ldImm 10 0xFF#8) := by decide
theorem test_decode_addImm : decode 0x7A01#16 = .known (.addImm 10 0x01#8) := by decide
theorem test_decode_ldReg : decode 0x8AB0#16 = .known (.ldReg 10 11) := by decide
theorem test_decode_orReg : decode 0x8AB1#16 = .known (.orReg 10 11) := by decide
theorem test_decode_andReg : decode 0x8AB2#16 = .known (.andReg 10 11) := by decide
theorem test_decode_xorReg : decode 0x8AB3#16 = .known (.xorReg 10 11) := by decide
theorem test_decode_addReg : decode 0x8AB4#16 = .known (.addReg 10 11) := by decide
theorem test_decode_sub : decode 0x8AB5#16 = .known (.sub 10 11) := by decide
theorem test_decode_shr : decode 0x8AB6#16 = .known (.shr 10 11) := by decide
theorem test_decode_subn : decode 0x8AB7#16 = .known (.subn 10 11) := by decide
theorem test_decode_shl : decode 0x8ABE#16 = .known (.shl 10 11) := by decide
theorem test_decode_sneReg : decode 0x9AB0#16 = .known (.sneReg 10 11) := by decide
theorem test_decode_ldI : decode 0xA123#16 = .known (.ldI 0x123#12) := by decide
theorem test_decode_jpV0 : decode 0xB123#16 = .known (.jpV0 0x123#12) := by decide
theorem test_decode_rnd : decode 0xC2FF#16 = .known (.rnd 2 0xFF#8) := by decide
theorem test_decode_drw : decode 0xD12F#16 = .known (.drw 1 2 15#4) := by decide
theorem test_decode_skp : decode 0xE19E#16 = .known (.skp 1) := by decide
theorem test_decode_sknp : decode 0xE1A1#16 = .known (.sknp 1) := by decide
theorem test_decode_ldXDt : decode 0xF107#16 = .known (.ldXDt 1) := by decide
theorem test_decode_ldXK : decode 0xF10A#16 = .known (.ldXK 1) := by decide
theorem test_decode_ldDtX : decode 0xF115#16 = .known (.ldDtX 1) := by decide
theorem test_decode_ldStX : decode 0xF118#16 = .known (.ldStX 1) := by decide
theorem test_decode_addI : decode 0xF11E#16 = .known (.addI 1) := by decide
theorem test_decode_ldF : decode 0xF129#16 = .known (.ldF 1) := by decide
theorem test_decode_ldB : decode 0xF133#16 = .known (.ldB 1) := by decide
theorem test_decode_ldMemX : decode 0xF155#16 = .known (.ldMemX 1) := by decide
theorem test_decode_ldXMem : decode 0xF165#16 = .known (.ldXMem 1) := by decide

/-- The words the spec lists as Unknown. -/
theorem test_decode_unknown :
    decode 0x0000#16 = .unknown 0x0000#16 ∧ decode 0x00E1#16 = .unknown 0x00E1#16 ∧ decode 0x01E0#16 = .unknown 0x01E0#16 ∧
    decode 0x0123#16 = .unknown 0x0123#16 ∧ decode 0x8AB8#16 = .unknown 0x8AB8#16 ∧ decode 0x8ABD#16 = .unknown 0x8ABD#16 ∧
    decode 0x8ABF#16 = .unknown 0x8ABF#16 ∧ decode 0xE1A2#16 = .unknown 0xE1A2#16 ∧ decode 0xE19F#16 = .unknown 0xE19F#16 ∧
    decode 0xF130#16 = .unknown 0xF130#16 ∧ decode 0xF100#16 = .unknown 0xF100#16 ∧ decode 0xFFFF#16 = .unknown 0xFFFF#16 :=
  ⟨rfl, rfl, rfl, rfl, rfl, rfl, rfl, rfl, rfl, rfl, rfl, rfl⟩

/-- D3: the low nibble of groups 0x5 and 0x9, for either value of LENIENT_5_9. -/
theorem test_decode_lenient : decodeWith true 0x5AB3#16 = .known (.seReg 10 11) ∧ decodeWith false 0x5AB3#16 = .unknown 0x5AB3#16 ∧
    decodeWith true 0x9AB1#16 = .known (.sneReg 10 11) ∧ decodeWith false 0x9AB1#16 = .unknown 0x9AB1#16 := by decide

/-- The encoder, on words of 95_test_vectors.md; the first byte in memory is the high one (20_memory.md R64). -/
theorem test_encode : encode (.drw 1 2 15#4) = 0xD12F#16 ∧ encode (.subn 10 11) = 0x8AB7#16 ∧ encode (.jpV0 0x123#12) = 0xB123#16 ∧
    encodeBytes (.ldXMem 1) = [0xF1#8, 0x65#8] := by decide

/-- Bytes that are no instruction are rejected by name. -/
theorem test_decodeBytes_rejects : decodeBytes [0xFF#8, 0xFF#8] = .error (.unknownOpcode 0xFFFF#16) ∧
    decodeBytes [0x12#8] = .error .tooShort ∧ decodeBytes [0x12#8, 0x34#8, 0x56#8] = .ok (.jp 0x234#12, [0x56#8]) := by
  refine ⟨rfl, rfl, rfl⟩

theorem test_decodeTableWord : decodeTableWord 16 0xD12F = some (.drw 1 2 15#4) ∧ decodeTableWord 16 0x8AB8 = none := by decide

/-! ## Well-formedness -/

/-- `imageFits` refuses an image of 3585 bytes and takes one of 3584 (70_reset_and_hazards.md R352). -/
theorem test_imageFits_refuses : ¬ imageFits (List.replicate 3585 0#8) ∧ imageFits (List.replicate 3584 0#8) := by
  simp only [imageFits, List.length_replicate, Config.programStart, Config.memSize]; omega

/-! ## One step of each instruction (95_test_vectors.md sections 1 and 2.2 to 2.7) -/

/-- Any fb, VF = 0x55: fb all 0, clear and then present, VF kept. -/
theorem test_cls : look (none, [], 0#8) (fun t => (t.presentOut, t.rendererOut, t.getV 15))
    (run1 0x00E0#16 [(15, 0x55#8)] { start [] 0#8 with fb := Vector.replicate 32 1#64 }) =
    (some clearedFb, [.clear, .present clearedFb], 0x55#8) := by decide

/-- 0x00EE with stack [0x202]. -/
theorem test_ret : look (0#16, [0#16]) (fun t => (t.pc, t.stack)) (run1 0x00EE#16 [] { start [] 0#8 with stack := [0x202#16] }) =
    (0x202#16, []) := by decide

/-- 0x00EE on an empty stack. -/
theorem test_ret_underflow : look (none, 0#16) (fun t => (t.outcome, t.pc)) (run1 0x00EE#16 [] { start [] 0#8 with pc := 0x300#16 }) =
    (some ⟨.stackUnderflow, 0x300#16, some 0x00EE#16, 0⟩, 0x300#16) := by decide

theorem test_jp : look 0#16 (fun t => t.pc) (run1 0x1201#16 []) = 0x201#16 := by decide

theorem test_call : look (0#16, []) (fun t => (t.pc, t.stack)) (exec (.call 0x300#12) { start [] 0#8 with pc := 0x1000#16 }) =
    (0x300#16, [0x1000#16]) := by
  simp [exec, execCall, start, State.reset, look, stackDepth, State.push, State.setStack, State.setPc, zextAddr]

/-- The full 8-bit compare: 0x42 is not 0x02. -/
theorem test_seImm : look 0#16 (fun t => t.pc) (run1 0x3342#16 [(3, 0x42#8)]) = 0x204#16 ∧
    look 0#16 (fun t => t.pc) (run1 0x3302#16 [(3, 0x42#8)]) = 0x202#16 := by decide

theorem test_sneImm : look 0#16 (fun t => t.pc) (run1 0x4342#16 [(3, 0x42#8)]) = 0x202#16 ∧
    look 0#16 (fun t => t.pc) (run1 0x4300#16 [(3, 0x01#8)]) = 0x204#16 := by decide

theorem test_seReg : look 0#16 (fun t => t.pc) (run1 0x5120#16 [(1, 7#8), (2, 7#8)]) = 0x204#16 ∧
    look 0#16 (fun t => t.pc) (run1 0x5120#16 [(1, 7#8), (2, 8#8)]) = 0x202#16 := by decide

theorem test_sneReg : look 0#16 (fun t => t.pc) (run1 0x9120#16 [(1, 7#8), (2, 8#8)]) = 0x204#16 ∧
    look 0#16 (fun t => t.pc) (run1 0x9110#16 [(1, 7#8)]) = 0x202#16 := by decide

theorem test_jpV0 : look 0#16 (fun t => t.pc) (run1 0xBFFF#16 [(0, 0xFF#8)]) = 0x10FE#16 := by decide

theorem test_ldImm : look (0#8, 0#8) (fun t => (t.getV 10, t.getV 15)) (run1 0x6A12#16 [(15, 0x55#8)]) = (0x12#8, 0x55#8) := by decide

/-- The wrap sets no flag (S2), and with x = 15 it is a plain addition. -/
theorem test_addImm : look (0#8, 0#8) (fun t => (t.getV 0, t.getV 15)) (run1 0x7002#16 [(0, 0xFF#8), (15, 0x55#8)]) = (0x01#8, 0x55#8) ∧
    look 1#8 (fun t => t.getV 15) (run1 0x7F01#16 [(15, 0xFF#8)]) = 0#8 := by decide

theorem test_ldReg : look (0#8, 0#8) (fun t => (t.getV 1, t.getV 2)) (run1 0x8120#16 [(2, 9#8)]) = (9#8, 9#8) := by decide

theorem test_orReg : look (0#8, 0#8) (fun t => (t.getV 1, t.getV 15)) (run1 0x8121#16 [(1, 0xF0#8), (2, 0x0F#8), (15, 0x55#8)]) =
    (0xFF#8, 0x55#8) := by decide

theorem test_andReg : look (0#8, 0#8) (fun t => (t.getV 1, t.getV 15)) (run1 0x8122#16 [(1, 0xF0#8), (2, 0x3C#8), (15, 0x55#8)]) =
    (0x30#8, 0x55#8) := by decide

theorem test_xorReg : look (0#8, 0#8) (fun t => (t.getV 1, t.getV 15)) (run1 0x8123#16 [(1, 0xF0#8), (2, 0x3C#8), (15, 0x55#8)]) =
    (0xCC#8, 0x55#8) := by decide

theorem test_addReg : look (1#8, 0#8) (fun t => (t.getV 0, t.getV 15)) (run1 0x8014#16 [(0, 0xFF#8), (1, 0x01#8)]) = (0#8, 1#8) := by decide

/-- x = 15: the flag overwrites the result; y = 15: the old VF is added. -/
theorem test_addReg_vf : look 0#8 (fun t => t.getV 15) (run1 0x8F04#16 [(15, 0x10#8), (0, 0xF5#8)]) = 1#8 ∧
    look (1#8, 0#8) (fun t => (t.getV 0, t.getV 15)) (run1 0x80F4#16 [(0, 0x01#8), (15, 0xFF#8)]) = (0#8, 1#8) := by decide

/-- S3 and S4. -/
theorem test_sub : look (0#8, 1#8) (fun t => (t.getV 1, t.getV 15)) (run1 0x8125#16 [(1, 0x01#8), (2, 0xFF#8)]) = (0x02#8, 0#8) ∧
    look (0#8, 0#8) (fun t => (t.getV 1, t.getV 15)) (run1 0x8125#16 [(1, 0xFF#8), (2, 0x01#8)]) = (0xFE#8, 1#8) := by decide

/-- Equal operands do not borrow. -/
theorem test_sub_equal : look (1#8, 0#8) (fun t => (t.getV 1, t.getV 15)) (run1 0x8125#16 [(1, 0x42#8), (2, 0x42#8)]) = (0#8, 1#8) := by decide

/-- V[y] is not read; with x = 15 VF is the bit shifted out. -/
theorem test_shr : look (0#8, 0#8) (fun t => (t.getV 1, t.getV 15)) (run1 0x81F6#16 [(1, 0x05#8), (15, 0xF0#8)]) = (0x02#8, 1#8) ∧
    look 0#8 (fun t => t.getV 15) (run1 0x8F06#16 [(15, 0x03#8)]) = 1#8 := by decide

theorem test_subn : look (0#8, 0#8) (fun t => (t.getV 1, t.getV 15)) (run1 0x8127#16 [(1, 0x01#8), (2, 0xFF#8)]) = (0xFE#8, 1#8) ∧
    look (0#8, 1#8) (fun t => (t.getV 1, t.getV 15)) (run1 0x8127#16 [(1, 0xFF#8), (2, 0x01#8)]) = (0x02#8, 0#8) := by decide

theorem test_shl : look (0#8, 0#8) (fun t => (t.getV 1, t.getV 15)) (run1 0x810E#16 [(1, 0x81#8)]) = (0x02#8, 1#8) ∧
    look 1#8 (fun t => t.getV 15) (run1 0x8F0E#16 [(15, 0x40#8)]) = 0#8 := by decide

theorem test_rnd : look 0#8 (fun t => t.getV 3) (run1 0xC30F#16 [] (start [] 0xA7#8)) = 0x07#8 ∧
    look 0#8 (fun t => t.getV 3) (run1 0xC3FF#16 [] (start [] 0xA7#8)) = 0xA7#8 := by decide

theorem test_ldI : look 0#16 (fun t => t.i) (run1 0xA123#16 []) = 0x0123#16 := by decide

/-- D11: the sum wraps at 65536. -/
theorem test_addI : look 0#16 (fun t => t.i) (run1 0xF21E#16 [(2, 0x02#8)] { start [] 0#8 with i := 0xFFFF#16 }) = 0x0001#16 ∧
    look 0#16 (fun t => t.i) (run1 0xF21E#16 [(2, 0x01#8)] { start [] 0#8 with i := 0x0FFF#16 }) = 0x1000#16 := by decide

theorem test_ldF : look 0#16 (fun t => t.i) (run1 0xF029#16 [(0, 0xFF#8)]) = 0x004B#16 ∧
    look 0#16 (fun t => t.i) (run1 0xF029#16 [(0, 0x1A#8)]) = 0x0032#16 := by decide

/-- S8, at the top of memory. -/
theorem test_ldB : look [] (fun t => bytesAt t 0xFFD 3) (run1 0xF033#16 [(0, 156#8)] { start [] 0#8 with i := 0xFFD#16 }) =
    [1#8, 5#8, 6#8] := by decide

/-- I = 0xFFE: nothing is written. -/
theorem test_ldB_range : look (none, []) (fun t => (t.outcome, bytesAt t 0xFFE 2))
    (run1 0xF033#16 [(0, 156#8)] { start [] 0#8 with i := 0xFFE#16 }) =
    (some ⟨.memoryOutOfRange, 0x200#16, some 0xF033#16, 0x1000⟩, [0#8, 0#8]) := by decide

theorem test_ldMemX : look ([], 0#16) (fun t => (bytesAt t 0x310 5, t.i))
    (run1 0xF355#16 [(0, 1#8), (1, 2#8), (2, 3#8), (3, 4#8), (4, 5#8)] { start [] 0#8 with i := 0x310#16 }) =
    ([1#8, 2#8, 3#8, 4#8, 0#8], 0x310#16) := by decide

/-- I = 0xFF1, x = 15: no byte is written. -/
theorem test_ldMemX_range : look (none, []) (fun t => (t.outcome, bytesAt t 0xFF1 1))
    (run1 0xFF55#16 [(0, 1#8)] { start [] 0#8 with i := 0xFF1#16 }) =
    (some ⟨.memoryOutOfRange, 0x200#16, some 0xFF55#16, 0x1000⟩, [0#8]) := by decide

/-- V3 is above x and keeps its value. -/
theorem test_ldXMem : look ([], 0#16) (fun t => (t.v.toList.take 4, t.i)) (run1 0xF265#16 [(3, 0x77#8)]) =
    ([0xFF#8, 0x81#8, 0x3C#8, 0x77#8], 0x300#16) := by decide

/-- I = 0 after reset: the first byte of glyph 0; I = 0x2000 is out of range. -/
theorem test_ldXMem_edges : look 0#8 (fun t => t.getV 0) (run1 0xF065#16 [] { start [] 0#8 with i := 0#16 }) = 0xF0#8 ∧
    look none (fun t => t.outcome) (run1 0xF065#16 [] { start [] 0#8 with i := 0x2000#16 }) =
      some ⟨.memoryOutOfRange, 0x200#16, some 0xF065#16, 0x2000⟩ := by decide

/-- S6: a sprite at column 60 is clipped; the frame is presented. -/
theorem test_drw_clips : look ([], 1#8, false) (fun t => (litIn t 0, t.getV 15, t.presentOut == some t.fb)) (run1 0xD011#16 [(0, 60#8)]) =
    ([60, 61, 62, 63], 0#8, true) := by decide

/-- V1 = 40 starts at row 8; a pixel at column 0 of row 10 is not met, one at column 7 of row 9 is. -/
theorem test_drw_rows : look ([], [], [], 0#8) (fun t => (litIn t 8, litIn t 9, litIn t 10, t.getV 15))
    (run1 0xD013#16 [(1, 40#8)] { start [] 0#8 with fb := flipPixel clearedFb 9 7 }) =
    ([0, 1, 2, 3, 4, 5, 6, 7], [0], [2, 3, 4, 5], 1#8) := by decide

/-- KEY_INDEX_MODE = mask: V2 = 0x13 names key 3. -/
theorem test_skp : look 0#16 (fun t => t.pc) (run1 0xE29E#16 [(2, 0x13#8)] (start [3] 0#8)) = 0x204#16 := by decide

theorem test_sknp : look 0#16 (fun t => t.pc) (run1 0xE2A1#16 [] (start [] 0#8)) = 0x204#16 ∧
    look 0#16 (fun t => t.pc) (run1 0xE2A1#16 [(2, 5#8)] (start [5] 0#8)) = 0x202#16 := by decide

/-- DT = 3 at the start of the step: DT = 2 and V1 = 2. -/
theorem test_ldXDt : look (0#8, 0#8) (fun t => (t.dt, t.getV 1)) (run1 0xF107#16 [] { start [] 0#8 with dt := 3#8 }) = (2#8, 2#8) := by decide

/-- DT = 5: DT = 4, the wait begins, and the key held in this step does not end it. -/
theorem test_ldXK : look (0#8, .running, 0#16) (fun t => (t.dt, t.mode, t.pc)) (run1 0xF30A#16 [] { start [7] 0#8 with dt := 5#8 }) =
    (4#8, .waitingForKey 3, 0x202#16) := by decide

/-- The step that ends the wait: the lowest key held, DT frozen. -/
theorem test_ldXK_resume : look (0#8, .waitingForKey 0, 0#8) (fun t => (t.getV 3, t.mode, t.dt))
    (step { start [7, 9] 0#8 with dt := 4#8, mode := .waitingForKey 3 }) = (7#8, .running, 4#8) := by decide

theorem test_ldDtX : look 0#8 (fun t => t.dt) (run1 0xF115#16 [(1, 5#8)]) = 5#8 := by decide

theorem test_ldStX : look 0#8 (fun t => t.soundTimerOut) (run1 0xF118#16 [(1, 2#8)]) = 2#8 := by decide

/-- pc = 0xFFF: the fetch fails at 0x1000, the timers have decayed. -/
theorem test_fetch_range : look (none, 9#8) (fun t => (t.outcome, t.dt)) (step { start [] 0#8 with pc := 0xFFF#16, dt := 1#8 }) =
    (some ⟨.memoryOutOfRange, 0xFFF#16, none, 0x1000⟩, 0#8) := by decide

/-- The empty image: UnknownOpcode at the first step after reset; then no step. -/
theorem test_empty_image : look none (fun t => t.outcome) (step State.reset) = some ⟨.unknownOpcode, 0x200#16, some 0#16, 0⟩ ∧
    look true (fun t => match step t with | .fault _ => false | _ => true) (step State.reset) = false := by decide

/-- DT = 1 reaches 0 and stays there (S9). -/
theorem test_timer_floor : satDec 1#8 = 0#8 ∧ satDec 0#8 = 0#8 := by decide

/-- P1's image: the first word stands at 0x200, and the step runs it. -/
theorem test_boot : ((boot [0x60#8, 0x05#8, 0x70#8, 0x0A#8, 0x12#8, 0x00#8]).map (fun s => look 0#8 (fun t => t.getV 0) (step s))) =
    some 5#8 := by decide

/-- withFetchWord makes the word the next instruction that runs. -/
theorem test_withFetchWord : look 0#16 (fun t => t.pc) (step (State.reset.withFetchWord 16 0x1ABC)) = 0xABC#16 := by decide

/-! ## Witnesses: for each obligation with hypotheses, a state and operands that meet them, one for each clause -/

/-- A running state with `w` at 0x200, the fetch and decode hypotheses of the step statements. -/
theorem witness_StepRunsTheDecodedInstruction : (State.reset.placeWord 0x1ABC#16).status = .ok ∧
    (State.reset.placeWord 0x1ABC#16).mode = .running ∧ fetchWord (State.reset.placeWord 0x1ABC#16).mem 0x200 = .ok 0x1ABC#16 ∧
    decode 0x1ABC#16 = .known (.jp 0xABC#12) ∧ (Instr.jp 0xABC#12).WellFormed := ⟨rfl, rfl, rfl, rfl, trivial⟩

theorem witness_DecodeOfEncodeIsTheInstruction : (Instr.drw 15 15 15#4).WellFormed := trivial

/-- A word of group 0x5 with a low nibble that is not 0, and one of another group. -/
theorem witness_EncodeOfDecodeIsTheWord : decode 0x5AB3#16 = .known (.seReg 10 11) ∧ decode 0xF165#16 = .known (.ldXMem 1) := ⟨rfl, rfl⟩

theorem witness_DecoderAgreesWithOpcodeTable : decode 0x8ABE#16 = .known (.shl 10 11) ∧
    (⟨"SHL", 0xF00F#16, 0x800E#16⟩ : OpcodeRow) ∈ opcodeTable ∧ 0x8ABE#16 &&& 0xF00F#16 = 0x800E#16 := by decide

theorem witness_NoWordMatchesTwoRows : (⟨"JP", 0xF000#16, 0x1000#16⟩ : OpcodeRow) ∈ opcodeTable ∧ 0x1ABC#16 &&& 0xF000#16 = 0x1000#16 := by
  decide

/-- A word for each of the five clauses. -/
theorem witness_UnknownWordsAreExactlyThese : decodeWith true 0x0123#16 = .unknown 0x0123#16 ∧
    decodeWith false 0x5AB3#16 = .unknown 0x5AB3#16 ∧ decodeWith true 0x8ABF#16 = .unknown 0x8ABF#16 ∧
    decodeWith true 0xE1A2#16 = .unknown 0xE1A2#16 ∧ decodeWith true 0xF130#16 = .unknown 0xF130#16 := ⟨rfl, rfl, rfl, rfl, rfl⟩

/-- The three clauses at their boundaries. -/
theorem witness_FetchReadsTwoBytesHighFirst : 0xFFE + 1 < 4096 ∧ fetchWord [] 0xFFE = .ok 0#16 ∧ fetchWord [] 0xFFF = .error 0x1000 ∧
    fetchWord [] 0x1000 = .error 0x1000 := ⟨by decide, rfl, rfl, rfl⟩

theorem witness_StepOnUnknownWordHalts : State.reset.status = .ok ∧ State.reset.mode = .running ∧
    fetchWord State.reset.mem State.reset.pc.toNat = .ok 0#16 ∧ decode 0#16 = .unknown 0#16 := ⟨rfl, rfl, rfl, rfl⟩

/-- pc at 0xFFF and at 0x1000. -/
theorem witness_StepWithFetchOutOfRangeHalts : (State.reset.setPc 0xFFF#16).status = .ok ∧ (State.reset.setPc 0xFFF#16).mode = .running ∧
    0xFFF ≤ (State.reset.setPc 0xFFF#16).pc.toNat ∧ 0xFFF ≤ (State.reset.setPc 0x1000#16).pc.toNat := by decide

/-- A step that raises on its instruction, and one whose fetch fails. -/
theorem witness_FaultingStepKeepsOnlyTimerDecay :
    (∃ t r, step (State.reset.placeWord 0x00EE#16) = .next t ∧ t.status = .halted r) ∧
    (∃ t r, step (State.reset.setPc 0xFFF#16) = .next t ∧ t.status = .halted r) := ⟨⟨_, _, rfl, rfl⟩, ⟨_, _, rfl, rfl⟩⟩

theorem witness_HaltedMachineHasNoStep : ∃ r, (State.reset.raiseUnknown 0#16).status = .halted r := ⟨_, rfl⟩

theorem witness_EveryInstructionAndStepAnswersNext : State.reset.status = .ok := rfl

/-- A waiting state whose step sees no key, and one whose step sees keys 7 and 9, so that the lowest is 7. -/
theorem witness_WaitStepScansTheKeys :
    (∀ j : Fin 16, ({ start [] 0#8 with mode := .waitingForKey 3 } : State).nextInput.keys[j] = false) ∧
    (held [7, 9])[(7 : Fin 16)] = true ∧ (∀ l < (7 : Fin 16), (held [7, 9])[l] = false) ∧
    ({ start [7, 9] 0#8 with mode := .waitingForKey 3 } : State).nextInput.keys = held [7, 9] := by decide

/-- A step of the wait; a step that runs LD DT, V1; one that runs LD ST, V1; one that runs neither. -/
theorem witness_TimersCountDownInRunningStepsOnly :
    (∃ t, step { State.reset with mode := .waitingForKey 3 } = .next t) ∧
    (∃ t, step (State.reset.placeWord 0xF115#16) = .next t ∧ decode 0xF115#16 = .known (.ldDtX 1)) ∧
    (∃ t, step (State.reset.placeWord 0xF118#16) = .next t ∧ decode 0xF118#16 = .known (.ldStX 1)) ∧
    (∃ t, step (State.reset.placeWord 0x1200#16) = .next t ∧ decode 0x1200#16 = .known (.jp 0x200#12)) :=
  ⟨⟨_, rfl⟩, ⟨_, rfl, rfl⟩, ⟨_, rfl, rfl⟩, ⟨_, rfl, rfl⟩⟩

/-- A step that raises; a wait; CLS; DRW; another instruction. -/
theorem witness_StepPresentsTheChangedDisplayOnce :
    (∃ t r, step State.reset = .next t ∧ t.status = .halted r) ∧
    look false (fun t => t.status == .ok) (step { start [] 0#8 with mode := .waitingForKey 3 }) = true ∧
    look false (fun t => t.status == .ok) (run1 0x00E0#16 []) = true ∧ look false (fun t => t.status == .ok) (run1 0xD011#16 []) = true ∧
    look false (fun t => t.status == .ok) (run1 0x6000#16 []) = true := ⟨⟨_, _, rfl, rfl⟩, by decide, by decide, by decide, by decide⟩

/-- A step with a snapshot lined up, one without, and an instruction that reads no key. -/
theorem witness_KeySnapshotIsReplacedWholesaleAndOnlyRead :
    (∃ t, step (start [1] 0#8) = .next t) ∧ (∃ x, (start [1] 0#8).inputs = [x]) ∧ State.reset.inputs = [] ∧
    (∃ t, exec (.ldImm 1 2#8) State.reset = .next t) ∧ mnemonic (.ldImm 1 2#8) ∉ ["SKP", "SKNP"] :=
  ⟨⟨_, rfl⟩, ⟨_, rfl⟩, rfl, ⟨_, rfl⟩, by decide⟩

theorem witness_RandomByteIsReadByRndOnly : mnemonic (.ldXK 1) ≠ "RND" ∧ ∃ t, exec (.ldXK 1) State.reset = .next t := ⟨by decide, _, rfl⟩

theorem witness_SoundTimerIsReadByNoInstruction : ∃ t, exec (.ldXDt 1) State.reset = .next t := ⟨_, rfl⟩

/-- A state that is not the reset state: a byte of memory written, a return address at its bound, pc at its bound. -/
def odd : State := { State.reset with mem := [(0x300, 1#8)], stack := [0x1000#16], pc := 0x10FE#16 }

theorem witness_StepKeepsTheInvariant : odd.Inv ∧ ∃ t, step odd = .next t := by
  refine ⟨⟨by decide, ?_, by simp [odd], by decide, rfl, ?_⟩, _, rfl⟩
  · exact Nat.le_trans (by decide : 1 ≤ 12) stackDepth_bounds.1
  · intro r h; cases h

theorem witness_EachPieceOfStateIsWrittenByItsInstructionsOnly : ∃ t, exec (.ldB 1) State.reset = .next t := ⟨_, rfl⟩

/-- An instruction of neither list, and a skip. -/
theorem witness_OnlyControlTransferWritesPc :
    (∃ t, exec .cls State.reset = .next t ∧ State.reset.status = .ok ∧ t.status = .ok) ∧
    (∃ t, exec (.seImm 0 0#8) State.reset = .next t ∧ t.status = .ok) := ⟨⟨_, rfl, rfl, rfl⟩, ⟨_, rfl, rfl⟩⟩

/-- A carry changes VF. -/
theorem witness_VFChangesOnlyAsFlagOrDestination : look false (fun t => t.v[(15 : Reg)] != State.reset.v[(15 : Reg)])
    (exec (.addReg 0 1) ((State.reset.setV 0 0xFF#8).setV 1 1#8)) = true := by decide

theorem witness_EachInstructionRaisesItsOwnKindOnly : ∃ t r, exec .ret State.reset = .next t ∧ State.reset.status = .ok ∧
    t.status = .halted r := ⟨_, _, rfl, rfl, rfl⟩

/-- A stack of one entry, and an empty one. -/
theorem witness_RetPopsIntoPc : (State.reset.setStack [0x202#16]).stack = [] ++ [0x202#16] ∧ State.reset.stack = [] := ⟨rfl, rfl⟩

/-- One entry below the capacity, and at capacity. -/
theorem witness_CallPushesAndJumps : (State.reset.setStack (List.replicate (stackDepth - 1) 0#16)).stack.length < stackDepth ∧
    (State.reset.setStack (List.replicate stackDepth 0#16)).stack.length = stackDepth := by
  have h := stackDepth_bounds
  exact ⟨(List.length_replicate).trans_lt (Nat.sub_lt (Nat.lt_of_lt_of_le (by decide) h.1) (by decide)), List.length_replicate⟩

/-- 11 and 16 entries. -/
theorem witness_CallOverflowsBetweenTwelveAndSixteen : State.reset.status = .ok ∧
    (State.reset.setStack (List.replicate 11 0#16)).stack.length < 12 ∧
    (State.reset.setStack (List.replicate 16 0#16)).stack.length = 16 := by decide

theorem witness_RetUndoesCall : State.reset.stack.length < stackDepth :=
  Nat.lt_of_lt_of_le (by decide : 0 < 12) stackDepth_bounds.1

/-- I + 2 at 4095 and at 4096, on canonical memory. -/
theorem witness_BcdStoresThreeDigits : (State.reset.setI 0xFFD#16).i.toNat + 2 < 4096 ∧ Memory.wf State.reset.mem = true ∧
    4096 ≤ (State.reset.setI 0xFFE#16).i.toNat + 2 := by decide

/-- I + x at 4095 and at 4096, on canonical memory. -/
theorem witness_RegisterDumpStoresV0ToVx : (State.reset.setI 0xFF0#16).i.toNat + (15 : Reg).val < 4096 ∧
    Memory.wf State.reset.mem = true ∧ (15 : Reg) ≤ 15 ∧ 4096 ≤ (State.reset.setI 0xFF1#16).i.toNat + (15 : Reg).val := by decide

theorem witness_RegisterLoadReadsV0ToVx : (State.reset.setI 0xFFF#16).i.toNat + (0 : Reg).val < 4096 ∧ (0 : Reg) < 1 ∧
    4096 ≤ (State.reset.setI 0x1000#16).i.toNat + (0 : Reg).val := by decide

theorem witness_RegisterLoadUndoesDump : Memory.wf (start [] 0#8).mem = true ∧ (start [] 0#8).i.toNat + (3 : Reg).val < 4096 := by decide

theorem witness_StoredBytesAreFetched : Memory.wf (start [] 0#8).mem = true ∧ (start [] 0#8).i.toNat + (1 : Reg).val < 4096 ∧
    (0 : Reg) < 1 := by decide

/-- The same address twice, and two addresses, the last one among them. -/
theorem witness_ReadReturnsTheMostRecentWrite : Memory.wf [(0x300, 1#8)] = true ∧ 0x300 < 4096 ∧ 0xFFF < 4096 ∧ (0x300 : Nat) ≠ 0xFFF := by
  decide

/-- An image of 3584 bytes. -/
theorem witness_ImageIsCopiedByteForByte : 0x200 + (List.replicate 3584 1#8).length ≤ 4096 ∧ Memory.wf State.reset.mem = true := by
  refine ⟨?_, rfl⟩
  simp only [List.length_replicate]; omega

/-- An image of 3585 bytes. -/
theorem witness_ImageThatDoesNotFitStartsNoMachine : 4096 < 0x200 + (List.replicate 3585 1#8).length := by
  simp only [List.length_replicate]; omega

/-- No row drawn; two rows up to the last address; two rows past it. -/
theorem witness_DrwXorsTheClippedSprite :
    (0 : Nat) = min (0#4).toNat (32 - (State.reset.v[(1 : Reg)]).toNat % 32) ∧
    (2 : Nat) = min (2#4).toNat (32 - (State.reset.v[(1 : Reg)]).toNat % 32) ∧ (State.reset.setI 0xFFE#16).i.toNat + 2 ≤ 4096 ∧
    4096 < (State.reset.setI 0xFFF#16).i.toNat + 2 := by decide

theorem witness_DrawingTwiceRestoresTheFramebuffer : ∃ t, exec (.drw 0 1 1#4) (start [] 0#8) = .next t ∧ (start [] 0#8).status = .ok ∧
    t.status = .ok ∧ t.v[(0 : Reg)] = (start [] 0#8).v[(0 : Reg)] ∧ t.v[(1 : Reg)] = (start [] 0#8).v[(1 : Reg)] :=
  ⟨_, rfl, rfl, rfl, rfl, rfl⟩

/-- The key of V[x] = 0x13; an index at 15 and one at 16. -/
theorem witness_KeySkipsTestTheKeyOfVx : (3 : Fin 16).val = ((State.reset.setV 2 0x13#8).v[(2 : Reg)]).toNat % 16 ∧
    ((State.reset.setV 2 15#8).v[(2 : Reg)]).toNat ≤ 15 ∧ 15 < ((State.reset.setV 2 16#8).v[(2 : Reg)]).toNat := by decide

theorem witness_DelayTimerReadAndWrite : (State.reset.placeWord 0xF107#16).status = .ok ∧
    (State.reset.placeWord 0xF107#16).mode = .running ∧ fetchWord (State.reset.placeWord 0xF107#16).mem 0x200 = .ok 0xF107#16 ∧
    decode 0xF107#16 = .known (.ldXDt 1) ∧ fetchWord (State.reset.placeWord 0xF115#16).mem 0x200 = .ok 0xF115#16 ∧
    decode 0xF115#16 = .known (.ldDtX 1) := ⟨rfl, rfl, rfl, rfl, rfl, rfl⟩

theorem witness_KeyWaitIsEnteredPastTheInstruction : (State.reset.placeWord 0xF30A#16).status = .ok ∧
    (State.reset.placeWord 0xF30A#16).mode = .running ∧ fetchWord (State.reset.placeWord 0xF30A#16).mem 0x200 = .ok 0xF30A#16 ∧
    decode 0xF30A#16 = .known (.ldXK 3) := ⟨rfl, rfl, rfl, rfl⟩

/-- A key snapshot, a row and column, and an address for the clauses about reset. -/
theorem witness_ResetLeavesTheStatedValues : (79 : Nat) < 80 ∧ (80 : Nat) ≤ 4095 ∧ (4095 : Nat) < 4096 := by decide

end Sys2Proof.Tests
end

section
/-! The family of 20_memory.md: the fetch (R66) and the loader (R65). -/

namespace Sys2Proof.Machine

/-- The load port stores an image that fits, and answers that state. -/
theorem loadImage_of_fits {image : List Byte} (s : State) (h : imageFits image) :
    loadImage image s = some (s.setMem (storeBytes s.mem Config.programStart image)) :=
  if_pos h

/-- Settles O7, from the fetch's equation in range and out of range. -/
theorem fetchReadsTwoBytesHighFirst : Obligations.FetchReadsTwoBytesHighFirst := by
  intro m pc
  refine ⟨fun hpc => ?inRange, fun hpc => ?secondByte, fun hpc => ?firstByte⟩
  case inRange => exact ⟨_, fetchWord_ok hpc, ofBytes_toNat _ _⟩
  case secondByte => subst hpc; exact fetchWord_error (by decide)
  case firstByte =>
    have hmax : max pc Config.memSize = pc := Nat.max_eq_left hpc
    rw [fetchWord_error (Nat.le_succ_of_le hpc), hmax]

/-- Settles O51: the load port is one run of consecutive stores from 0x200 on. -/
theorem imageIsCopiedByteForByte : Obligations.ImageIsCopiedByteForByte := by
  intro image s hfit
  refine ⟨_, loadImage_of_fits s hfit, rfl, fun a ha => ?outside, fun hwf => ⟨?canonical, fun k hk => ?copied⟩⟩
  case outside => exact readByte_storeBytes_outside image s.mem Config.programStart a ha
  case canonical => exact loadImage_wf hwf (loadImage_of_fits s hfit)
  case copied =>
    rw [List.getElem?_eq_getElem hk]
    exact congrArg some (readByte_storeBytes image hwf hfit k hk)

end Sys2Proof.Machine
end

section
/-! The family of 41_control.md: RET (R171), JP (R172), CALL (R173) and the skips on an immediate (R174, R175). -/

namespace Sys2Proof.Machine

/-- A 12-bit address keeps its value when it is zero-extended. -/
theorem zextAddr_toNat (nnn : BitVec 12) : (zextAddr nnn).toNat = nnn.toNat :=
  BitVec.toNat_setWidth_of_le (by decide)

theorem execCall_of_lt {nnn : BitVec 12} {s : State} (h : s.stack.length < stackDepth) :
    exec (.call nnn) s = .next ((s.push s.pc).setPc (zextAddr nnn)) :=
  if_neg (Nat.not_le.mpr h)

theorem execCall_of_ge {nnn : BitVec 12} {s : State} (h : stackDepth ≤ s.stack.length) :
    exec (.call nnn) s = .next (s.raise (.call nnn) .stackOverflow stackDepth) :=
  if_pos h

theorem execRet_of_append {s : State} {l : List Word} {w : Word} (h : s.stack = l ++ [w]) :
    exec .ret s = .next ((s.setStack l).setPc w) := by
  simp only [exec, execRet, h, List.getLast?_concat, List.dropLast_concat]

theorem execRet_of_nil {s : State} (h : s.stack = []) : exec .ret s = .next (s.raise .ret .stackUnderflow 0) := by
  simp only [exec, execRet, h, List.getLast?_nil]

/-- A skip on a proposition: one instruction width, 2, exactly when it holds (41_control.md R170). -/
theorem State.skipIf_decide (s : State) (p : Prop) [Decidable p] :
    s.skipIf (decide p) = { s with pc := if p then s.pc + 2#16 else s.pc } := by
  simp only [State.skipIf, State.setPc, decide_eq_true_eq]

/-- Settles O30, from CALL's equation below the capacity and at it. -/
theorem callPushesAndJumps : Obligations.CallPushesAndJumps := by
  intro nnn s
  refine ⟨fun hlt => ?below, fun hfull => ?atCapacity⟩
  case below => exact ⟨_, execCall_of_lt hlt, rfl, zextAddr_toNat nnn⟩
  case atCapacity => exact ⟨_, _, execCall_of_ge hfull.ge, State.raise_status .., rfl, rfl, State.raise_stack .., State.raise_pc ..⟩

/-- Settles O27, from RET's equation on a stack with a last entry and on an empty one. -/
theorem retPopsIntoPc : Obligations.RetPopsIntoPc := by
  refine ⟨fun s l w hlast => ?pops, fun s hempty => ?underflows⟩
  case pops => exact execRet_of_append hlast
  case underflows => exact ⟨_, _, execRet_of_nil hempty, State.raise_status .., rfl, rfl⟩

/-- Settles O28: the new pc is nnn zero-extended. -/
theorem jpSetsPc : Obligations.JpSetsPc :=
  fun nnn s => ⟨s.setPc (zextAddr nnn), rfl, rfl, zextAddr_toNat nnn⟩

/-- Settles O33: two bytes are equal in all 8 bits exactly when their values are (30_encoding.md R102). -/
theorem skipsOnImmediateCompareAllBits : Obligations.SkipsOnImmediateCompareAllBits := by
  intro x nn s
  have allBits : s.v[x].toNat = nn.toNat ↔ s.getV x = nn := BitVec.toNat_inj
  simp only [allBits]
  refine ⟨?equal, ?notEqual⟩
  case equal => exact congrArg _ (s.skipIf_decide (s.getV x = nn))
  case notEqual =>
    rw [← ite_not]
    exact congrArg _ (s.skipIf_decide (s.getV x ≠ nn))

end Sys2Proof.Machine
end

section
/-! The family of 42_alu.md: loads and ADD on an immediate (R202 to R204), ADD (R209), SUB (R210) and SHL (R213). -/

namespace Sys2Proof.Machine

theorem State.setV_read_self (s : State) (x : Reg) (b : Byte) : (s.setV x b).v[x] = b :=
  (s.getV_setV x x b).trans (if_pos rfl)

theorem State.setV_read_other (s : State) {x r : Reg} (b : Byte) (h : r ≠ x) : (s.setV x b).v[r] = s.v[r] :=
  (s.getV_setV x r b).trans (if_neg h)

/-- VF holds the flag even where it is the destination too. -/
theorem State.setResultFlag_read_vf (s : State) (x : Reg) (a f : Byte) : (s.setResultFlag x a f).v[(15 : Reg)] = f :=
  (s.setV x a).setV_read_self 15 f

theorem State.setResultFlag_read_dest (s : State) {x : Reg} (a f : Byte) (h : x ≠ 15) : (s.setResultFlag x a f).v[x] = a :=
  ((s.setV x a).setV_read_other f h).trans (s.setV_read_self x a)

theorem State.setResultFlag_read_other (s : State) {x r : Reg} (a f : Byte) (hx : r ≠ x) (hvf : r ≠ 15) :
    (s.setResultFlag x a f).v[r] = s.v[r] :=
  ((s.setV x a).setV_read_other f hvf).trans (s.setV_read_other a hx)

/-- An instruction that writes a result and then a flag (42_alu.md R208), told by the values of the two bytes: the flag is in VF, the
result in V[x] unless x is 15, and nothing else changes. -/
theorem exec_writes_result_then_flag {i : Instr} {s : State} {x : Reg} {a f : Byte} {result flag : Nat}
    (hexec : exec i s = .next (s.setResultFlag x a f)) (hflag : f.toNat = flag) (hresult : a.toNat = result) :
    ∃ t, exec i s = .next t ∧ t = { s with v := t.v } ∧ t.v[(15 : Reg)].toNat = flag ∧
      (x ≠ 15 → t.v[x].toNat = result) ∧ ∀ r : Reg, r ≠ x → r ≠ 15 → t.v[r] = s.v[r] := by
  refine ⟨_, hexec, s.setResultFlag_frame x a f, ?flag, fun hx => ?result, fun r hrx hrvf => ?others⟩
  case flag => rw [s.setResultFlag_read_vf, hflag]
  case result => rw [s.setResultFlag_read_dest a f hx, hresult]
  case others => exact s.setResultFlag_read_other a f hrx hrvf

theorem carryFlag_toNat (a b : Byte) : (carryFlag a b).toNat = if a.toNat + b.toNat > 255 then 1 else 0 :=
  flagByte_toNat _

theorem noBorrowFlag_toNat (a b : Byte) : (noBorrowFlag a b).toNat = if a.toNat ≥ b.toNat then 1 else 0 :=
  flagByte_toNat _

/-- The bit a left shift drops is bit 7, the byte's value divided by 128. -/
theorem shiftLeftOut_toNat (a : Byte) : (shiftLeftOut a).toNat = a.toNat / 128 := by
  rw [shiftLeftOut, BitVec.toNat_ushiftRight, Nat.shiftRight_eq_div_pow]

theorem byteSub_toNat (a b : Byte) : (a - b).toNat = (a.toNat + 256 - b.toNat) % 256 := by
  rw [BitVec.toNat_sub']
  exact congrArg (· % 256) (Nat.add_sub_assoc b.isLt.le a.toNat).symm

theorem byteShiftLeftOne_toNat (a : Byte) : (a <<< 1).toNat = 2 * a.toNat % 256 := by
  rw [BitVec.toNat_shiftLeft, Nat.shiftLeft_eq, Nat.mul_comm]

/-- Settles O37: the carry is computed from the old values and written after the sum. -/
theorem addSetsCarryLast : Obligations.AddSetsCarryLast :=
  fun _ _ _ => exec_writes_result_then_flag rfl (carryFlag_toNat _ _) (BitVec.toNat_add _ _)

/-- Settles O38: the flag is computed from the old values and written after the difference. -/
theorem subSetsNoBorrowLast : Obligations.SubSetsNoBorrowLast :=
  fun _ _ _ => exec_writes_result_then_flag rfl (noBorrowFlag_toNat _ _) (byteSub_toNat _ _)

/-- Settles O41: the bit shifted out is written after the doubled value, and SHL does not read V[y]. -/
theorem shlPutsTheHighBitInVF : Obligations.ShlPutsTheHighBitInVF := by
  refine fun x y s => ⟨?shifts, fun z => ?ignoresY⟩
  case shifts => exact exec_writes_result_then_flag rfl (shiftLeftOut_toNat _) (byteShiftLeftOne_toNat _)
  case ignoresY => rfl

/-- Settles O35: each of the three is one `setV`. -/
theorem loadsAndAddImmediateWriteVxOnly : Obligations.LoadsAndAddImmediateWriteVxOnly := by
  refine fun x y nn s => ⟨?loadImmediate, ?addImmediate, ?loadRegister⟩
  case loadImmediate => exact ⟨_, rfl, rfl, s.setV_read_self x nn, fun r hr => s.setV_read_other nn hr⟩
  case addImmediate =>
    refine ⟨s.setV x (s.getV x + nn), rfl, rfl, ?sum, fun r hr => s.setV_read_other _ hr⟩
    rw [s.setV_read_self]
    exact BitVec.toNat_add _ _
  case loadRegister => exact ⟨_, rfl, rfl, s.setV_read_self x (s.getV y), fun r hr => s.setV_read_other _ hr⟩

end Sys2Proof.Machine
end

section
/-! The family of 43_index_memory.md: LD I (R241) and LD B (R244). -/

namespace Sys2Proof.Machine

theorem execLdB_of_fits {x : Reg} {s : State} (h : s.i.toNat + 3 ≤ Config.memSize) :
    exec (.ldB x) s = .next (s.setMem (storeBytes s.mem s.i.toNat (bcdDigits (s.getV x)))) := by
  simp only [exec, execLdB, rangeFault_eq_none.mpr (.inr h)]

theorem execLdB_of_gt {x : Reg} {s : State} (h : Config.memSize < s.i.toNat + 3) :
    exec (.ldB x) s = .next (s.raise (.ldB x) .memoryOutOfRange (max s.i.toNat Config.memSize)) := by
  simp only [exec, execLdB, rangeFault_eq_some.mpr ⟨Nat.succ_pos 2, h, rfl⟩]

/-- A stored digit reads back with its value: a digit of a byte is at most the byte, so it fits one. -/
theorem readByte_storeBytes_bcdDigits {m : Memory} {a : Nat} {b : Byte} (hm : m.wf = true) (hfit : a + 3 ≤ Config.memSize)
    {k digit : Nat} (hk : k < 3) (hdigit : (bcdDigits b)[k]'hk = BitVec.ofNat 8 digit) (hle : digit ≤ b.toNat) :
    (readByte (storeBytes m a (bcdDigits b)) (a + k)).toNat = digit := by
  rw [readByte_storeBytes (bcdDigits b) hm hfit k hk, hdigit]
  exact Nat.mod_eq_of_lt (hle.trans_lt b.isLt)

/-- Settles O45, from LD B's equation in range and out of range: in range it is three consecutive stores. -/
theorem bcdStoresThreeDigits : Obligations.BcdStoresThreeDigits := by
  refine fun x s => ⟨fun hin => ⟨_, execLdB_of_fits hin, rfl, fun a ha => ?outside, fun hwf => ⟨?hundreds, ?tens, ?units⟩⟩,
    fun hout => ?outOfRange⟩
  case outside => exact readByte_storeBytes_outside (bcdDigits (s.getV x)) s.mem s.i.toNat a ha
  case hundreds => exact readByte_storeBytes_bcdDigits hwf hin (k := 0) (by decide) rfl (Nat.div_le_self _ _)
  case tens => exact readByte_storeBytes_bcdDigits hwf hin (by decide) rfl ((Nat.mod_le _ _).trans (Nat.div_le_self _ _))
  case units => exact readByte_storeBytes_bcdDigits hwf hin (by decide) rfl (Nat.mod_le _ _)
  case outOfRange =>
    exact ⟨_, _, execLdB_of_gt (Nat.lt_succ_of_le hout), State.raise_status .., rfl, rfl, State.raise_mem ..⟩

/-- Settles O43: I becomes nnn zero-extended. -/
theorem ldISetsI : Obligations.LdISetsI :=
  fun nnn s => ⟨s.setI (zextAddr nnn), rfl, rfl, zextAddr_toNat nnn⟩

end Sys2Proof.Machine
end

section
/-! The family of 44_display.md: CLS (R271). -/

namespace Sys2Proof.Machine

theorem pixel_clearedFb (r c : Nat) : pixel clearedFb r c = false := by
  have hrow : clearedFb.getD r 0#64 = 0#64 := by
    by_cases hr : r < 32
    · simp [Vector.getD, clearedFb, hr]
    · simp [Vector.getD, hr]
  rw [pixel, hrow, BitVec.getMsbD_zero]

/-- Settles O53: CLS is one `setFb` of the cleared framebuffer and one `clear` signal. -/
theorem clsClearsTheFramebuffer : Obligations.ClsClearsTheFramebuffer :=
  fun s => ⟨(s.setFb clearedFb).signal .clear, rfl, rfl, pixel_clearedFb⟩

end Sys2Proof.Machine
end

section
/-! The family of 45_timers_keys.md: LD Vx, DT (R293), LD DT, Vx (R294) and LD ST, Vx (R295). -/

namespace Sys2Proof.Machine

/-- A running step that fetches and decodes an instruction executes it on the state past the decay and the fetch (40_cycle.md R149). -/
theorem step_of_exec {s u : State} {w : Word} {i : Instr} (hstatus : s.status = .ok) (hmode : s.mode = .running)
    (hfetch : fetchWord s.mem s.pc.toNat = .ok w) (hdecode : decode w = .known i)
    (hexec : exec i s.beginStep.decay.advancePc = .next u) : step s = .next u.endStep := by
  simp only [step, cycle, hstatus, hmode, runCycle, State.decay_mem, State.decay_pc, State.beginStep_mem, State.beginStep_pc,
    hfetch, hdecode, hexec]

/-- Settles O57: each is one update, and in a step `exec` runs after the decay, whose DT is `satDec s.dt`, and writes last. -/
theorem delayTimerReadAndWrite : Obligations.DelayTimerReadAndWrite := by
  refine ⟨fun x s => ⟨?read, ?write⟩, fun s w x hstatus hmode hfetch => ⟨fun hdecode => ?stepRead, fun hdecode => ?stepWrite⟩⟩
  case read => exact ⟨_, rfl, rfl, s.setV_read_self x s.dt, fun r hr => s.setV_read_other s.dt hr⟩
  case write => exact ⟨_, rfl, rfl⟩
  case stepRead =>
    have hread (u : State) (b : Byte) : (u.setV x b).endStep.v[x] = b := by
      rw [State.endStep_v, State.setV_read_self]
    refine ⟨_, step_of_exec hstatus hmode hfetch hdecode rfl, ?decayed, (State.endStep_dt _).trans (hread _ _).symm⟩
    rw [hread]
    exact satDec_toNat s.dt
  case stepWrite => exact ⟨_, step_of_exec hstatus hmode hfetch hdecode rfl, State.endStep_dt _⟩

/-- Settles O58: LD ST, Vx is one `setSt`, and the sound timer output is ST. -/
theorem soundTimerWrite : Obligations.SoundTimerWrite :=
  fun x s => ⟨s.setSt s.v[x], rfl, rfl, s.setSt_st s.v[x]⟩

end Sys2Proof.Machine
end

section
/-! The family of 30_encoding.md: the decoder, the encoder and the opcode table. -/

namespace Sys2Proof

/-! ## Words and their fields -/

theorem topNibble_toNat (w : Word) : (topNibble w).toNat = w.toNat / 4096 := by
  have := w.isLt
  rw [topNibble, BitVec.extractLsb'_toNat, Nat.shiftRight_eq_div_pow]
  omega

theorem fieldN_toNat (w : Word) : (fieldN w).toNat = w.toNat % 16 := BitVec.extractLsb'_toNat ..

theorem fieldNN_toNat (w : Word) : (fieldNN w).toNat = w.toNat % 256 := BitVec.extractLsb'_toNat ..

theorem formatXYN_toNat (op : BitVec 4) (x y : Reg) (n : BitVec 4) :
    (formatXYN op x y n).toNat = 4096 * op.toNat + 256 * x.val + 16 * y.val + n.toNat := by
  have := op.isLt
  have := n.isLt
  simp only [formatXYN, ofNibbles, BitVec.toNat_append, BitVec.toNat_ofFin]
  rw [← Nat.shiftLeft_add_eq_or_of_lt n.isLt, ← Nat.shiftLeft_add_eq_or_of_lt y.isLt, ← Nat.shiftLeft_add_eq_or_of_lt x.isLt]
  simp only [Nat.shiftLeft_eq]
  omega

section Fields
variable {w : Word} {op : BitVec 4} (hop : topNibble w = op)
include hop

theorem formatA_of_fields : formatA op (fieldNNN w) = w := hop ▸ formatA_fields w

theorem formatXB_of_fields {nn : Byte} (hnn : fieldNN w = nn) : formatXB op (fieldX w) nn = w := hop ▸ hnn ▸ formatXB_fields w

theorem formatXYN_of_fields {n : BitVec 4} (hn : fieldN w = n) : formatXYN op (fieldX w) (fieldY w) n = w :=
  hop ▸ hn ▸ formatXYN_fields w

/-- With low nibble 0 written in, a word loses its own (92_eei_decisions.md D3). -/
theorem formatXYN_zero_toNat : (formatXYN op (fieldX w) (fieldY w) 0x0#4).toNat = w.toNat / 16 * 16 := by
  have hw := congrArg BitVec.toNat (formatXYN_of_fields hop rfl)
  have hn := (fieldN w).isLt
  rw [formatXYN_toNat] at hw ⊢
  simp only [BitVec.toNat_ofNat]
  omega

end Fields

theorem nibble_cases (n : BitVec 4) : n = 0x0#4 ∨ n = 0x1#4 ∨ n = 0x2#4 ∨ n = 0x3#4 ∨ n = 0x4#4 ∨ n = 0x5#4 ∨ n = 0x6#4 ∨ n = 0x7#4 ∨
    n = 0x8#4 ∨ n = 0x9#4 ∨ n = 0xA#4 ∨ n = 0xB#4 ∨ n = 0xC#4 ∨ n = 0xD#4 ∨ n = 0xE#4 ∨ n = 0xF#4 := by
  revert n; decide

/-! ## Decoding an encoded instruction -/

/-- Settles O1, format by format: the decoder reads back the nibbles and bytes the format was put together from. -/
theorem decodeOfEncodeIsTheInstruction : Obligations.DecodeOfEncodeIsTheInstruction := by
  intro i _
  cases i
  case cls | ret => rfl
  case jp | call | ldI | jpV0 => simp only [encode, decode, decodeWith, topNibble_formatA, fieldNNN_formatA]
  case seImm | sneImm | ldImm | addImm | rnd =>
    simp only [encode, decode, decodeWith, topNibble_formatXB, fieldX_formatXB, fieldNN_formatXB]
  case drw => simp only [encode, decode, decodeWith, topNibble_formatXYN, fieldX_formatXYN, fieldY_formatXYN, fieldN_formatXYN]
  case seReg | sneReg =>
    simp only [encode, decode, decodeWith, decodeLowNibbleFree, topNibble_formatXYN, fieldX_formatXYN, fieldY_formatXYN,
      fieldN_formatXYN, or_true, if_true]
  case ldReg | orReg | andReg | xorReg | addReg | sub | shr | subn | shl =>
    simp only [encode, decode, decodeWith, decodeGroup8, topNibble_formatXYN, fieldX_formatXYN, fieldY_formatXYN, fieldN_formatXYN]
  case skp | sknp => simp only [encode, decode, decodeWith, decodeGroupE, topNibble_formatXB, fieldX_formatXB, fieldNN_formatXB]
  case ldXDt | ldXK | ldDtX | ldStX | addI | ldF | ldB | ldMemX | ldXMem =>
    simp [encode, decode, decodeWith, decodeGroupF]

/-- The decoder reads back what the encoder writes. -/
theorem decode_encode (i : Instr) : decode (encode i) = .known i := decodeOfEncodeIsTheInstruction i trivial

/-! ## What the decoder's groups answer -/

theorem encode_of_decodeGroup0 {w : Word} {i : Instr} (h : decodeGroup0 w = .known i) : encode i = w := by
  unfold decodeGroup0 at h
  split at h
  · cases h; exact Eq.symm ‹_›
  · split at h
    · cases h; exact Eq.symm ‹_›
    · cases h

theorem encode_of_decodeGroup8 {w : Word} {i : Instr} (hop : topNibble w = 0x8#4) (h : decodeGroup8 w = .known i) : encode i = w := by
  unfold decodeGroup8 at h
  split at h <;> cases h <;> exact formatXYN_of_fields hop ‹_›

theorem encode_of_decodeGroupE {w : Word} {i : Instr} (hop : topNibble w = 0xE#4) (h : decodeGroupE w = .known i) : encode i = w := by
  unfold decodeGroupE at h
  split at h <;> cases h <;> exact formatXB_of_fields hop ‹_›

theorem encode_of_decodeGroupF {w : Word} {i : Instr} (hop : topNibble w = 0xF#4) (h : decodeGroupF w = .known i) : encode i = w := by
  unfold decodeGroupF at h
  split at h <;> cases h <;> exact formatXB_of_fields hop ‹_›

theorem decodeGroup0_eq_unknown {w u : Word} :
    decodeGroup0 w = .unknown u ↔ u = w ∧ w.toNat ≠ 0x00E0 ∧ w.toNat ≠ 0x00EE := by
  have toWord (v : Word) : w = v ↔ w.toNat = v.toNat := BitVec.toNat_eq
  simp only [decodeGroup0, toWord]
  split
  · simp_all
  · split <;> simp_all [eq_comm]

theorem decodeGroup8_eq_unknown {w u : Word} :
    decodeGroup8 w = .unknown u ↔ u = w ∧ w.toNat % 16 ∈ [0x8, 0x9, 0xA, 0xB, 0xC, 0xD, 0xF] := by
  rw [← fieldN_toNat]
  unfold decodeGroup8
  rcases nibble_cases (fieldN w) with h | h | h | h | h | h | h | h | h | h | h | h | h | h | h | h <;> simp [h, eq_comm]

theorem decodeGroupE_eq_unknown {w u : Word} :
    decodeGroupE w = .unknown u ↔ u = w ∧ w.toNat % 256 ∉ [0x9E, 0xA1] := by
  rw [← fieldNN_toNat]
  unfold decodeGroupE
  split <;> simp_all [BitVec.toNat_eq, eq_comm]

theorem decodeGroupF_eq_unknown {w u : Word} : decodeGroupF w = .unknown u ↔
    u = w ∧ w.toNat % 256 ∉ [0x07, 0x0A, 0x15, 0x18, 0x1E, 0x29, 0x33, 0x55, 0x65] := by
  rw [← fieldNN_toNat]
  unfold decodeGroupF
  split <;> simp_all [BitVec.toNat_eq, eq_comm]

theorem decodeLowNibbleFree_eq_unknown {lenient : Bool} {i : Instr} {w u : Word} :
    decodeLowNibbleFree lenient i w = .unknown u ↔ u = w ∧ lenient = false ∧ w.toNat % 16 ≠ 0 := by
  have lowNibble : fieldN w = 0x0#4 ↔ w.toNat % 16 = 0 := by rw [← fieldN_toNat]; exact BitVec.toNat_eq
  cases lenient <;> simp only [decodeLowNibbleFree, lowNibble]
  · split <;> simp_all [eq_comm]
  · simp


/-- What the decoder has read when it answers an instruction: outside groups 0x5 and 0x9 its very word, in those two a skip whose low
nibble is not kept (92_eei_decisions.md D3). -/
theorem decode_known {w : Word} {i : Instr} (h : decode w = .known i) :
    (topNibble w ≠ 0x5#4 ∧ topNibble w ≠ 0x9#4 ∧ encode i = w) ∨ (topNibble w = 0x5#4 ∧ i = .seReg (fieldX w) (fieldY w)) ∨
    (topNibble w = 0x9#4 ∧ i = .sneReg (fieldX w) (fieldY w)) := by
  have whole {op : BitVec 4} (hop : topNibble w = op) (hother : op ≠ 0x5#4 ∧ op ≠ 0x9#4) (he : encode i = w) :
      topNibble w ≠ 0x5#4 ∧ topNibble w ≠ 0x9#4 ∧ encode i = w := by
    rw [hop]; exact ⟨hother.1, hother.2, he⟩
  simp only [decode, decodeWith, decodeLowNibbleFree, lenient59, true_or, if_true] at h
  split at h
  case h_6 hop => cases h; exact .inr (.inl ⟨hop, rfl⟩)
  case h_10 hop => cases h; exact .inr (.inr ⟨hop, rfl⟩)
  all_goals refine .inl ?_
  case h_1 hop => exact whole hop (by decide) (encode_of_decodeGroup0 h)
  case h_9 hop => exact whole hop (by decide) (encode_of_decodeGroup8 hop h)
  case h_15 hop => exact whole hop (by decide) (encode_of_decodeGroupE hop h)
  case h_16 =>
    have hop : topNibble w = 0xF#4 := by have := nibble_cases (topNibble w); simp_all
    exact whole hop (by decide) (encode_of_decodeGroupF hop h)
  case h_2 hop | h_3 hop | h_11 hop | h_12 hop => cases h; exact whole hop (by decide) (formatA_of_fields hop)
  case h_4 hop | h_5 hop | h_7 hop | h_8 hop | h_13 hop => cases h; exact whole hop (by decide) (formatXB_of_fields hop rfl)
  case h_14 hop => cases h; exact whole hop (by decide) (formatXYN_of_fields hop rfl)

/-- Settles O2, from the decoder's inversion: in groups 0x5 and 0x9 the encoder writes low nibble 0. -/
theorem encodeOfDecodeIsTheWord : Obligations.EncodeOfDecodeIsTheWord := by
  intro w i h
  have hfive : w.toNat / 4096 = 5 ↔ topNibble w = 0x5#4 := by rw [← topNibble_toNat]; exact BitVec.toNat_inj (y := 0x5#4)
  have hnine : w.toNat / 4096 = 9 ↔ topNibble w = 0x9#4 := by rw [← topNibble_toNat]; exact BitVec.toNat_inj (y := 0x9#4)
  simp only [hfive, hnine]
  rcases decode_known h with ⟨hne5, hne9, hword⟩ | ⟨hop, rfl⟩ | ⟨hop, rfl⟩
  · rw [if_neg (not_or.mpr ⟨hne5, hne9⟩)]
    exact hword
  · rw [if_pos (.inl hop)]
    exact formatXYN_zero_toNat hop
  · rw [if_pos (.inr hop)]
    exact formatXYN_zero_toNat hop

/-! ## The opcode table -/

/-- The row of every instruction matches its encoded word. -/
theorem tableRow_of_encode (i : Instr) : Laws.TableRow.Statement i := by
  open Laws.TableRow in
  cases i with
  | cls => exact cls
  | ret => exact ret
  | jp nnn => exact jp nnn
  | call nnn => exact call nnn
  | seImm x nn => exact seImm x nn
  | sneImm x nn => exact sneImm x nn
  | seReg x y => exact seReg x y
  | ldImm x nn => exact ldImm x nn
  | addImm x nn => exact addImm x nn
  | ldReg x y => exact ldReg x y
  | orReg x y => exact orReg x y
  | andReg x y => exact andReg x y
  | xorReg x y => exact xorReg x y
  | addReg x y => exact addReg x y
  | sub x y => exact sub x y
  | shr x y => exact shr x y
  | subn x y => exact subn x y
  | shl x y => exact shl x y
  | sneReg x y => exact sneReg x y
  | ldI nnn => exact ldI nnn
  | jpV0 nnn => exact jpV0 nnn
  | rnd x nn => exact rnd x nn
  | drw x y n => exact drw x y n
  | skp x => exact skp x
  | sknp x => exact sknp x
  | ldXDt x => exact ldXDt x
  | ldXK x => exact ldXK x
  | ldDtX x => exact ldDtX x
  | ldStX x => exact ldStX x
  | addI x => exact addI x
  | ldF x => exact ldF x
  | ldB x => exact ldB x
  | ldMemX x => exact ldMemX x
  | ldXMem x => exact ldXMem x

/-! What a row's mask covers, its value gives: the top nibble, and the low nibble or the low byte. -/

theorem topNibble_of_masked {w m v : Word} (h : w &&& m = v) (hm : topNibble m = BitVec.allOnes 4) : topNibble w = topNibble v := by
  have hand : topNibble (w &&& m) = topNibble w &&& topNibble m := BitVec.extractLsb'_and ..
  rw [← h, hand, hm, BitVec.and_allOnes]

theorem fieldN_of_masked {w m v : Word} (h : w &&& m = v) (hm : fieldN m = BitVec.allOnes 4) : fieldN w = fieldN v := by
  have hand : fieldN (w &&& m) = fieldN w &&& fieldN m := BitVec.extractLsb'_and ..
  rw [← h, hand, hm, BitVec.and_allOnes]

theorem fieldNN_of_masked {w m v : Word} (h : w &&& m = v) (hm : fieldNN m = BitVec.allOnes 8) : fieldNN w = fieldNN v := by
  have hand : fieldNN (w &&& m) = fieldNN w &&& fieldNN m := BitVec.extractLsb'_and ..
  rw [← h, hand, hm, BitVec.and_allOnes]

/-- Every word that matches the row decodes to an instruction of the row's mnemonic. -/
def RowDecodes (row : OpcodeRow) : Prop :=
  ∀ w : Word, w &&& row.mask = row.value → ∃ i, decode w = .known i ∧ mnemonic i = row.mnemonic

/-- A row matched only by encoded words of its mnemonic. -/
theorem rowDecodes_of_encode {row : OpcodeRow}
    (h : ∀ w : Word, w &&& row.mask = row.value → ∃ i, encode i = w ∧ mnemonic i = row.mnemonic) : RowDecodes row := by
  intro w hw
  obtain ⟨i, rfl, hi⟩ := h w hw
  exact ⟨i, decode_encode i, hi⟩

/-- A row of format A: the mask covers the top nibble. -/
theorem decodes_formatA {name : String} {value : Word} (i : BitVec 12 → Instr)
    (hi : ∀ nnn, mnemonic (i nnn) = name := by intros; rfl)
    (henc : ∀ nnn, encode (i nnn) = formatA (topNibble value) nnn := by intros; rfl) :
    RowDecodes (OpcodeRow.mk name 0xF000#16 value) :=
  rowDecodes_of_encode fun w (hw : w &&& 0xF000#16 = value) =>
    ⟨i (fieldNNN w), (henc _).trans (formatA_of_fields (topNibble_of_masked hw rfl)), hi _⟩

/-- A row of format XB with a free byte. -/
theorem decodes_formatXB {name : String} {value : Word} (i : Reg → Byte → Instr)
    (hi : ∀ x nn, mnemonic (i x nn) = name := by intros; rfl)
    (henc : ∀ x nn, encode (i x nn) = formatXB (topNibble value) x nn := by intros; rfl) :
    RowDecodes (OpcodeRow.mk name 0xF000#16 value) :=
  rowDecodes_of_encode fun w (hw : w &&& 0xF000#16 = value) =>
    ⟨i (fieldX w) (fieldNN w), (henc _ _).trans (formatXB_of_fields (topNibble_of_masked hw rfl) rfl), hi _ _⟩

/-- A row of format XB whose byte is the row's own. -/
theorem decodes_formatXB_low {name : String} {value : Word} (i : Reg → Instr)
    (hi : ∀ x, mnemonic (i x) = name := by intros; rfl)
    (henc : ∀ x, encode (i x) = formatXB (topNibble value) x (fieldNN value) := by intros; rfl) :
    RowDecodes (OpcodeRow.mk name 0xF0FF#16 value) :=
  rowDecodes_of_encode fun w (hw : w &&& 0xF0FF#16 = value) =>
    ⟨i (fieldX w), (henc _).trans (formatXB_of_fields (topNibble_of_masked hw rfl) (fieldNN_of_masked hw rfl)), hi _⟩

/-- A row of format XY, whose low nibble is the row's own. -/
theorem decodes_formatXY {name : String} {value : Word} (i : Reg → Reg → Instr)
    (hi : ∀ x y, mnemonic (i x y) = name := by intros; rfl)
    (henc : ∀ x y, encode (i x y) = formatXYN (topNibble value) x y (fieldN value) := by intros; rfl) :
    RowDecodes (OpcodeRow.mk name 0xF00F#16 value) :=
  rowDecodes_of_encode fun w (hw : w &&& 0xF00F#16 = value) =>
    ⟨i (fieldX w) (fieldY w), (henc _ _).trans (formatXYN_of_fields (topNibble_of_masked hw rfl) (fieldN_of_masked hw rfl)), hi _ _⟩

/-- The row of format XYN with a free low nibble. -/
theorem decodes_drw : RowDecodes (OpcodeRow.mk "DRW" 0xF000#16 0xD000#16) :=
  rowDecodes_of_encode fun w hw =>
    ⟨.drw (fieldX w) (fieldY w) (fieldN w), formatXYN_of_fields (topNibble_of_masked hw rfl) rfl, rfl⟩

/-- A row of one word. -/
theorem decodes_word (i : Instr) : RowDecodes (OpcodeRow.mk (mnemonic i) 0xFFFF#16 (encode i)) :=
  rowDecodes_of_encode fun w (hw : w &&& BitVec.allOnes 16 = encode i) => ⟨i, hw.symm.trans BitVec.and_allOnes, rfl⟩

/-- The rows of groups 0x5 and 0x9, whose low nibble is not decoded (92_eei_decisions.md D3). -/
theorem decodes_seReg : RowDecodes (OpcodeRow.mk "SE_reg" 0xF000#16 0x5000#16) := fun w hw =>
  have hop : topNibble w = 0x5#4 := topNibble_of_masked hw rfl
  ⟨.seReg (fieldX w) (fieldY w), by simp only [decode, decodeWith, hop, decodeLowNibbleFree, lenient59, true_or, if_true], rfl⟩

theorem decodes_sneReg : RowDecodes (OpcodeRow.mk "SNE_reg" 0xF000#16 0x9000#16) := fun w hw =>
  have hop : topNibble w = 0x9#4 := topNibble_of_masked hw rfl
  ⟨.sneReg (fieldX w) (fieldY w), by simp only [decode, decodeWith, hop, decodeLowNibbleFree, lenient59, true_or, if_true], rfl⟩

theorem opcodeTable_decodes : ∀ row ∈ opcodeTable, RowDecodes row := by
  simp only [opcodeTable, List.cons_append, List.nil_append, List.forall_mem_cons]
  exact ⟨decodes_word .cls, decodes_word .ret, decodes_formatA .jp, decodes_formatA .call, decodes_formatXB .seImm,
    decodes_formatXB .sneImm, decodes_seReg, decodes_formatXB .ldImm, decodes_formatXB .addImm, decodes_formatXY .ldReg,
    decodes_formatXY .orReg, decodes_formatXY .andReg, decodes_formatXY .xorReg, decodes_formatXY .addReg, decodes_formatXY .sub,
    decodes_formatXY .shr, decodes_formatXY .subn, decodes_formatXY .shl, decodes_sneReg, decodes_formatA .ldI, decodes_formatA .jpV0,
    decodes_formatXB .rnd, decodes_drw, decodes_formatXB_low .skp, decodes_formatXB_low .sknp, decodes_formatXB_low .ldXDt,
    decodes_formatXB_low .ldXK, decodes_formatXB_low .ldDtX, decodes_formatXB_low .ldStX, decodes_formatXB_low .addI,
    decodes_formatXB_low .ldF, decodes_formatXB_low .ldB, decodes_formatXB_low .ldMemX, decodes_formatXB_low .ldXMem,
    List.forall_mem_nil _⟩

/-- A word that decodes to an instruction matches the instruction's row. -/
theorem tableRow_of_decode {w : Word} {i : Instr} (h : decode w = .known i) :
    ∃ row ∈ opcodeTable, row.mnemonic = mnemonic i ∧ w &&& row.mask = row.value := by
  have undecodedNibble (op : BitVec 4) (hop : topNibble w = op) : w &&& 0xF000#16 = formatXYN op 0 0 0#4 := by
    rw [← formatXYN_of_fields hop rfl]; exact Laws.TableRow.formatXYN_mask ..
  rcases decode_known h with ⟨-, -, rfl⟩ | ⟨hop, rfl⟩ | ⟨hop, rfl⟩
  · exact tableRow_of_encode i
  · exact ⟨⟨"SE_reg", 0xF000#16, 0x5000#16⟩, by decide, rfl, (undecodedNibble _ hop).trans (by decide)⟩
  · exact ⟨⟨"SNE_reg", 0xF000#16, 0x9000#16⟩, by decide, rfl, (undecodedNibble _ hop).trans (by decide)⟩

/-- Settles O3: an instruction's own row matches its word, and each row's mask and value fix the fields the decoder reads. -/
theorem decoderAgreesWithOpcodeTable : Obligations.DecoderAgreesWithOpcodeTable :=
  fun w => ⟨fun _ h => tableRow_of_decode h, fun row hrow => opcodeTable_decodes row hrow w⟩

/-- Settles O4: two rows that one word matches agree on the bits both masks cover, and no two different rows of the table do. -/
theorem noWordMatchesTwoRows : Obligations.NoWordMatchesTwoRows := by
  have agree : ∀ p ∈ opcodeTable, ∀ q ∈ opcodeTable, p.value &&& q.mask = q.value &&& p.mask → p = q := by decide
  intro w p hp q hq hwp hwq
  refine agree p hp q hq ?_
  rw [← hwp, ← hwq, BitVec.and_assoc, BitVec.and_assoc, BitVec.and_comm p.mask]

/-- Settles O5, group by group: a group that is one instruction's own has no unknown word. -/
theorem unknownWordsAreExactlyThese : Obligations.UnknownWordsAreExactlyThese := by
  intro lenient w u
  have hgroup := topNibble_toNat w
  rcases nibble_cases (topNibble w) with hop | hop | hop | hop | hop | hop | hop | hop | hop | hop | hop | hop | hop | hop | hop | hop <;>
    rw [hop] at hgroup <;>
    simp [decodeWith, hop, ← hgroup, decodeGroup0_eq_unknown, decodeGroup8_eq_unknown, decodeGroupE_eq_unknown, decodeGroupF_eq_unknown,
      decodeLowNibbleFree_eq_unknown]

/-- Settles O6: the eight words, computed. -/
theorem sampleWordsDecodeAsTheSpecLists : Obligations.SampleWordsDecodeAsTheSpecLists := by
  unfold Obligations.SampleWordsDecodeAsTheSpecLists
  decide

end Sys2Proof
end

section
/-! What an instruction does, said once for all 34: the conditions it raises and the updates it makes, with what follows for the pieces of
state that no instruction but its own writes (10_state.md R21 to R30) and for those that are not read. -/

namespace Sys2Proof.Machine

/-! ## The instructions that check a range, in range and out of range -/

theorem length_take_regs (v : Vector Byte 16) (x : Reg) : (v.toList.take (x.val + 1)).length = x.val + 1 := by
  rw [List.length_take, Vector.length_toList]
  exact Nat.min_eq_left x.isLt

theorem execLdMemX_of_fits {x : Reg} {s : State} (h : s.i.toNat + (x.val + 1) ≤ Config.memSize) :
    exec (.ldMemX x) s = .next (s.setMem (storeBytes s.mem s.i.toNat (s.v.toList.take (x.val + 1)))) := by
  simp only [exec, execLdMemX, rangeFault_eq_none.mpr (.inr h)]

theorem execLdMemX_of_gt {x : Reg} {s : State} (h : Config.memSize < s.i.toNat + (x.val + 1)) :
    exec (.ldMemX x) s = .next (s.raise (.ldMemX x) .memoryOutOfRange (max s.i.toNat Config.memSize)) := by
  simp only [exec, execLdMemX, rangeFault_eq_some.mpr ⟨Nat.succ_pos _, h, rfl⟩]

theorem execLdXMem_of_fits {x : Reg} {s : State} (h : s.i.toNat + (x.val + 1) ≤ Config.memSize) :
    exec (.ldXMem x) s = .next (s.setRegs (loadRegs s.mem s.i.toNat x s.v)) := by
  simp only [exec, execLdXMem, rangeFault_eq_none.mpr (.inr h)]

theorem execLdXMem_of_gt {x : Reg} {s : State} (h : Config.memSize < s.i.toNat + (x.val + 1)) :
    exec (.ldXMem x) s = .next (s.raise (.ldXMem x) .memoryOutOfRange (max s.i.toNat Config.memSize)) := by
  simp only [exec, execLdXMem, rangeFault_eq_some.mpr ⟨Nat.succ_pos _, h, rfl⟩]

section Drw
variable {x y : Reg} {n : BitVec 4} {s : State}

theorem execDrw_of_fits
    (h : drawnRows n (startRow (s.getV y)) = 0 ∨ s.i.toNat + drawnRows n (startRow (s.getV y)) ≤ Config.memSize) :
    exec (.drw x y n) s = .next ((s.setV vf (flagByte (drwBlit x y n s).hit)).setFb (drwBlit x y n s).fb) := by
  simp only [exec, execDrw, rangeFault_eq_none.mpr h, drwBlit]

theorem execDrw_of_gt (hrows : 0 < drawnRows n (startRow (s.getV y)))
    (h : Config.memSize < s.i.toNat + drawnRows n (startRow (s.getV y))) :
    exec (.drw x y n) s = .next (s.raise (.drw x y n) .memoryOutOfRange (max s.i.toNat Config.memSize)) := by
  simp only [exec, execDrw, rangeFault_eq_some.mpr ⟨hrows, h, rfl⟩]

end Drw

/-! ## Every instruction answers a next state, and what it has done then -/

/-- The fatal condition an instruction raises from `s`, and its information (60_exceptions.md R320). Under KEY_INDEX_MODE = mask the key
skips raise none (92_eei_decisions.md D8). -/
inductive Raises (s : State) : Instr → FatalKind → Nat → Prop
  | ret : Raises s .ret .stackUnderflow 0
  | call (nnn : BitVec 12) : Raises s (.call nnn) .stackOverflow stackDepth
  | drw (x y : Reg) (n : BitVec 4) : Raises s (.drw x y n) .memoryOutOfRange (max s.i.toNat Config.memSize)
  | ldB (x : Reg) : Raises s (.ldB x) .memoryOutOfRange (max s.i.toNat Config.memSize)
  | ldMemX (x : Reg) : Raises s (.ldMemX x) .memoryOutOfRange (max s.i.toNat Config.memSize)
  | ldXMem (x : Reg) : Raises s (.ldXMem x) .memoryOutOfRange (max s.i.toNat Config.memSize)

/-- The register an instruction writes as an ordinary destination, where that is the only register it writes. -/
def destination : Instr → Option Reg
  | .ldImm x _ | .addImm x _ | .ldReg x _ | .orReg x _ | .andReg x _ | .xorReg x _ | .rnd x _ | .ldXDt x => some x
  | _ => none

/-- What an instruction has done to `s` when it answers a next state: it has raised, or it has made one of these updates. -/
inductive Effect (s : State) : Instr → State → Prop
  | raises {i : Instr} {k : FatalKind} {n : Nat} (h : Raises s i k n) : Effect s i (s.raise i k n)
  | cls : Effect s .cls ((s.setFb clearedFb).signal .clear)
  | ret {l : List Word} {w : Word} (h : s.stack = l ++ [w]) : Effect s .ret ((s.setStack l).setPc w)
  | call {nnn : BitVec 12} (h : s.stack.length < stackDepth) : Effect s (.call nnn) ((s.push s.pc).setPc (zextAddr nnn))
  | jp {nnn : BitVec 12} : Effect s (.jp nnn) (s.setPc (zextAddr nnn))
  | jpV0 {nnn : BitVec 12} : Effect s (.jpV0 nnn) (s.setPc (zextAddr nnn + zextByte (s.getV 0)))
  | skips {i : Instr} {c : Bool} (hi : mnemonic i ∈ ["SE_imm", "SNE_imm", "SE_reg", "SNE_reg", "SKP", "SKNP"]) : Effect s i (s.skipIf c)
  | setsV {i : Instr} {x : Reg} {b : Byte} (hi : destination i = some x) : Effect s i (s.setV x b)
  | setsResultFlag {i : Instr} {x : Reg} {a f : Byte} (hi : mnemonic i ∈ ["ADD_reg", "SUB", "SHR", "SUBN", "SHL"]) :
      Effect s i ((s.setV x a).setV vf f)
  | setsI {i : Instr} {w : Word} (hi : mnemonic i ∈ ["LD_I", "ADD_I", "LD_F"]) : Effect s i (s.setI w)
  | draws {x y : Reg} {n : BitVec 4} {p : Blit} : Effect s (.drw x y n) ((s.setV vf (flagByte p.hit)).setFb p.fb)
  | setsDt {x : Reg} : Effect s (.ldDtX x) (s.setDt (s.getV x))
  | setsSt {x : Reg} : Effect s (.ldStX x) (s.setSt (s.getV x))
  | waits {x : Reg} : Effect s (.ldXK x) (s.setMode (.waitingForKey x))
  | stores {i : Instr} {l : List Byte} (hi : mnemonic i ∈ ["LD_B", "LD_mem_x"]) (hfit : s.i.toNat + l.length ≤ Config.memSize) :
      Effect s i (s.setMem (storeBytes s.mem s.i.toNat l))
  | loads {x : Reg} : Effect s (.ldXMem x) (s.setRegs (loadRegs s.mem s.i.toNat x s.v))

/-- The key skips under the mode the spec decided, mask: no index is out of range (92_eei_decisions.md D8). -/
theorem skipOnKey_mask (held : Bool) (i : Instr) (x : Reg) (s : State) :
    ∃ k : Fin 16, k.val = (s.getV x).toNat % 16 ∧ skipOnKey keyIndexMode held i x s = s.skipIf (s.keys[k] == held) := by
  rcases skipOnKey_cases keyIndexMode held i x s with ⟨hmode, -, -⟩ | hskip
  · cases hmode
  · exact hskip

/-- Every instruction that answers a next state has had one of the effects. -/
theorem exec_effect {i : Instr} {s t : State} (h : exec i s = .next t) : Effect s i t := by
  cases i
  case cls => cases h; exact .cls
  case ret =>
    rcases execRet_cases h with ⟨-, rfl⟩ | ⟨l, w, hstack, rfl⟩
    · exact .raises .ret
    · exact .ret hstack
  case call nnn =>
    rcases execCall_cases h with ⟨-, rfl⟩ | ⟨hroom, rfl⟩
    · exact .raises (.call nnn)
    · exact .call hroom
  case jp => cases h; exact .jp
  case jpV0 => cases h; exact .jpV0
  case seImm | sneImm | seReg | sneReg => cases h; exact .skips (by simp [mnemonic])
  case skp x =>
    obtain ⟨k, -, hskip⟩ := skipOnKey_mask true (.skp x) x s
    rw [exec, execSkp, hskip] at h; cases h
    exact .skips (by simp [mnemonic])
  case sknp x =>
    obtain ⟨k, -, hskip⟩ := skipOnKey_mask false (.sknp x) x s
    rw [exec, execSknp, hskip] at h; cases h
    exact .skips (by simp [mnemonic])
  case ldImm | addImm | ldReg | orReg | andReg | xorReg | rnd | ldXDt => cases h; exact .setsV rfl
  case addReg | sub | shr | subn | shl => cases h; exact .setsResultFlag (by simp [mnemonic])
  case ldI | addI | ldF => cases h; exact .setsI (by simp [mnemonic])
  case drw x y n =>
    rcases execDrw_cases h with ⟨-, -, rfl⟩ | ⟨-, rfl⟩
    · exact .raises (.drw x y n)
    · exact .draws
  case ldXK => cases h; exact .waits
  case ldDtX => cases h; exact .setsDt
  case ldStX => cases h; exact .setsSt
  case ldB x =>
    rcases execLdB_cases h with ⟨-, rfl⟩ | ⟨hfit, rfl⟩
    · exact .raises (.ldB x)
    · exact .stores (by simp [mnemonic]) hfit
  case ldMemX x =>
    rcases execLdMemX_cases h with ⟨-, rfl⟩ | ⟨hfit, rfl⟩
    · exact .raises (.ldMemX x)
    · exact .stores (by simp [mnemonic]) (by rw [length_take_regs]; exact hfit)
  case ldXMem x =>
    rcases execLdXMem_cases h with ⟨-, rfl⟩ | ⟨-, rfl⟩
    · exact .raises (.ldXMem x)
    · exact .loads

/-- An effect leaves the machine running unless it is a fatal condition. -/
theorem Effect.status {s t : State} {i : Instr} (h : Effect s i t) :
    t.status = s.status ∨ ∃ k n, Raises s i k n ∧ t = s.raise i k n := by
  cases h
  case raises k n h => exact .inr ⟨k, n, h, rfl⟩
  all_goals exact .inl (by simp)

/-- An instruction that halts the machine has raised its own fatal condition. -/
theorem exec_raises {i : Instr} {s t : State} {r : FatalRecord} (h : exec i s = .next t) (hs : s.status = .ok)
    (ht : t.status = .halted r) : ∃ k n, Raises s i k n ∧ t = s.raise i k n := by
  rcases (exec_effect h).status with hkept | hraised
  · rw [hkept, hs] at ht; cases ht
  · exact hraised

theorem Raises.kind_of_mnemonic {s : State} {i : Instr} {k : FatalKind} {n : Nat} (h : Raises s i k n) :
    (k = .stackUnderflow ∧ i = .ret) ∨ (k = .stackOverflow ∧ mnemonic i = "CALL") ∨
    (k = .memoryOutOfRange ∧ mnemonic i ∈ ["DRW", "LD_B", "LD_mem_x", "LD_x_mem"]) := by
  cases h <;> simp [mnemonic]

/-- Settles O26: an instruction that halts has raised, and under the decided KEY_INDEX_MODE the key skips never do. -/
theorem eachInstructionRaisesItsOwnKindOnly : Obligations.EachInstructionRaisesItsOwnKindOnly := by
  intro i s t r h hs ht
  obtain ⟨k, n, hraises, rfl⟩ := exec_raises h hs ht
  cases ht
  refine ⟨?_, rfl, rfl, rfl⟩
  rcases hraises.kind_of_mnemonic with hk | hk | hk
  · exact .inl hk
  · exact .inr (.inl hk)
  · exact .inr (.inr (.inl hk))

/-- The rows with one ordinary destination register. -/
theorem mnemonic_of_destination {i : Instr} {x : Reg} (h : destination i = some x) :
    mnemonic i ∈ ["LD_imm", "ADD_imm", "LD_reg", "OR", "AND", "XOR", "RND", "LD_x_DT"] := by
  cases i
  case ldImm | addImm | ldReg | orReg | andReg | xorReg | rnd | ldXDt => simp [mnemonic]
  all_goals cases h

/-- A name in a list is in every list that holds the first one. -/
theorem mem_of_listed {m : String} {l k : List String} (h : m ∈ l) (hlk : l ⊆ k := by decide) : m ∈ k := hlk h

/-! Which effects write which piece of state: every other effect keeps it. -/

section Kept
variable {s t : State} {i : Instr} (h : Effect s i t)
include h

theorem Effect.mem_kept (hi : mnemonic i ∉ ["LD_B", "LD_mem_x"]) : t.mem = s.mem := by
  cases h
  case stores l hfit hstore => exact absurd hstore hi
  all_goals simp

theorem Effect.v_kept (hi : mnemonic i ∉ ["LD_imm", "ADD_imm", "LD_reg", "OR", "AND", "XOR", "ADD_reg", "SUB", "SHR", "SUBN", "SHL",
    "RND", "DRW", "LD_x_DT", "LD_x_mem"]) : t.v = s.v := by
  cases h
  case setsV x b hdest => exact absurd (mem_of_listed (mnemonic_of_destination hdest)) hi
  case setsResultFlag x a f hflag => exact absurd (mem_of_listed hflag) hi
  case draws | loads => exact absurd (by simp [mnemonic]) hi
  all_goals simp

theorem Effect.i_kept (hi : mnemonic i ∉ ["LD_I", "ADD_I", "LD_F"]) : t.i = s.i := by
  cases h
  case setsI w hset => exact absurd hset hi
  all_goals simp

theorem Effect.stack_kept (hi : mnemonic i ∉ ["RET", "CALL"]) : t.stack = s.stack := by
  cases h
  case ret | call => exact absurd (by simp [mnemonic]) hi
  all_goals simp

theorem Effect.dt_kept (hi : mnemonic i ≠ "LD_DT_x") : t.dt = s.dt := by
  cases h
  case setsDt => exact absurd rfl hi
  all_goals simp

theorem Effect.st_kept (hi : mnemonic i ≠ "LD_ST_x") : t.st = s.st := by
  cases h
  case setsSt => exact absurd rfl hi
  all_goals simp

theorem Effect.display_kept (hi : mnemonic i ∉ ["CLS", "DRW"]) : t.fb = s.fb ∧ t.displayChanged = s.displayChanged := by
  cases h
  case cls | draws => exact absurd (by simp [mnemonic]) hi
  all_goals simp

theorem Effect.mode_kept (hi : mnemonic i ≠ "LD_x_K") : t.mode = s.mode := by
  cases h
  case waits => exact absurd rfl hi
  all_goals simp

/-- No effect writes the step's inputs. -/
theorem Effect.inputs_kept : t.keys = s.keys ∧ t.rand8 = s.rand8 ∧ t.inputs = s.inputs ∧ t.tick = s.tick := by
  cases h <;> simp

end Kept

/-- Settles O23, from the effects: each writes one piece of state, or the display's two. -/
theorem eachPieceOfStateIsWrittenByItsInstructionsOnly : Obligations.EachPieceOfStateIsWrittenByItsInstructionsOnly := by
  intro i s t h
  have effect := exec_effect h
  exact ⟨effect.mem_kept, effect.v_kept, effect.i_kept, effect.stack_kept, effect.dt_kept, effect.st_kept, effect.display_kept,
    effect.mode_kept, effect.inputs_kept⟩

/-- Every instruction answers a next state (40_cycle.md R146; log entry 1). -/
theorem exec_next (i : Instr) (s : State) : ∃ t, exec i s = .next t := by
  cases i
  case ret =>
    rcases List.eq_nil_or_concat' s.stack with hnil | ⟨l, w, hlast⟩
    · exact ⟨_, execRet_of_nil hnil⟩
    · exact ⟨_, execRet_of_append hlast⟩
  case call =>
    rcases Nat.lt_or_ge s.stack.length stackDepth with hroom | hfull
    · exact ⟨_, execCall_of_lt hroom⟩
    · exact ⟨_, execCall_of_ge hfull⟩
  case drw x y n =>
    rcases Nat.lt_or_ge Config.memSize (s.i.toNat + drawnRows n (startRow (s.getV y))) with hout | hfit
    · rcases Nat.eq_zero_or_pos (drawnRows n (startRow (s.getV y))) with hnone | hrows
      · exact ⟨_, execDrw_of_fits (.inl hnone)⟩
      · exact ⟨_, execDrw_of_gt hrows hout⟩
    · exact ⟨_, execDrw_of_fits (.inr hfit)⟩
  case ldB =>
    rcases Nat.lt_or_ge Config.memSize (s.i.toNat + 3) with hout | hfit
    · exact ⟨_, execLdB_of_gt hout⟩
    · exact ⟨_, execLdB_of_fits hfit⟩
  case ldMemX x =>
    rcases Nat.lt_or_ge Config.memSize (s.i.toNat + (x.val + 1)) with hout | hfit
    · exact ⟨_, execLdMemX_of_gt hout⟩
    · exact ⟨_, execLdMemX_of_fits hfit⟩
  case ldXMem x =>
    rcases Nat.lt_or_ge Config.memSize (s.i.toNat + (x.val + 1)) with hout | hfit
    · exact ⟨_, execLdXMem_of_gt hout⟩
    · exact ⟨_, execLdXMem_of_fits hfit⟩
  all_goals exact ⟨_, rfl⟩

/-- Settles O24: an instruction that does not halt writes pc by a return, a call, a jump or a skip alone. -/
theorem onlyControlTransferWritesPc : Obligations.OnlyControlTransferWritesPc := by
  intro i s t h hs ht
  cases exec_effect h
  case raises => cases ht
  case ret | call | jp | jpV0 => exact ⟨fun hi => absurd (by simp [mnemonic]) hi, fun hi => absurd hi (by simp [mnemonic])⟩
  case skips c hskip =>
    refine ⟨fun hi => absurd (mem_of_listed hskip) hi, fun _ => ?_⟩
    cases c
    · exact .inl rfl
    · exact .inr rfl
  all_goals simp

/-- Settles O25: an effect on the registers writes its one destination, or a result and VF, or V0 to Vx. -/
theorem vFChangesOnlyAsFlagOrDestination : Obligations.VFChangesOnlyAsFlagOrDestination := by
  intro i s t h hvf
  cases exec_effect h
  case setsV x b hdest =>
    have hx : x = 15 := by
      by_contra hne
      exact hvf (s.setV_read_other b (Ne.symm hne))
    subst hx
    cases i <;> cases hdest <;> simp [mnemonic]
  case setsResultFlag x a f hflag => exact .inl (mem_of_listed hflag)
  case draws => exact .inl (by simp [mnemonic])
  case loads x =>
    have hx : x = 15 := by
      by_contra hne
      have hx : ¬ 15 ≤ x := fun hle => hne (Fin.le_antisymm (Fin.le_last x) hle)
      exact hvf ((loadRegs_get s.mem s.i.toNat x s.v 15).trans (if_neg hx))
    exact .inr (.inr (.inr (.inr (by rw [hx]))))
  all_goals exact absurd (by simp) hvf

/-! ## What instructions do not read -/

/-- Another key snapshot `k`, random byte `b` and ST `c` make no difference to an instruction that does not read them: the next state
holds them too, but for an ST that the instruction writes. -/
theorem exec_unread {i : Instr} {s t : State} (h : exec i s = .next t) {k : Keys} {b c c' : Byte}
    (hkeys : mnemonic i ∈ ["SKP", "SKNP"] → k = s.keys) (hrand : mnemonic i = "RND" → b = s.rand8)
    (hst : mnemonic i = "LD_ST_x" → c' = t.st) (hkept : mnemonic i ≠ "LD_ST_x" → c' = c) :
    exec i { s with keys := k, rand8 := b, st := c } = .next { t with keys := k, rand8 := b, st := c' } := by
  cases i
  case ldStX => cases h; cases hst rfl; rfl
  all_goals cases hkept (by simp [mnemonic])
  case rnd => cases h; cases hrand rfl; rfl
  case skp | sknp => cases h; cases hkeys (by simp [mnemonic]); rfl
  case ret =>
    rcases execRet_cases h with ⟨hnil, rfl⟩ | ⟨l, w, hlast, rfl⟩
    · exact execRet_of_nil hnil
    · exact execRet_of_append hlast
  case call =>
    rcases execCall_cases h with ⟨hfull, rfl⟩ | ⟨hroom, rfl⟩
    · exact execCall_of_ge hfull
    · exact execCall_of_lt hroom
  case drw =>
    rcases execDrw_cases h with ⟨hrows, hout, rfl⟩ | ⟨hfit, rfl⟩
    · exact execDrw_of_gt hrows hout
    · exact execDrw_of_fits hfit
  case ldB =>
    rcases execLdB_cases h with ⟨hout, rfl⟩ | ⟨hfit, rfl⟩
    · exact execLdB_of_gt hout
    · exact execLdB_of_fits hfit
  case ldMemX =>
    rcases execLdMemX_cases h with ⟨hout, rfl⟩ | ⟨hfit, rfl⟩
    · exact execLdMemX_of_gt hout
    · exact execLdMemX_of_fits hfit
  case ldXMem =>
    rcases execLdXMem_cases h with ⟨hout, rfl⟩ | ⟨hfit, rfl⟩
    · exact execLdXMem_of_gt hout
    · exact execLdXMem_of_fits hfit
  all_goals cases h; rfl

/-- Settles O18, from what instructions do not read, with keys and ST as they are. -/
theorem randomByteIsReadByRndOnly : Obligations.RandomByteIsReadByRndOnly := by
  intro i s t b hi h
  have effect := exec_effect h
  obtain ⟨hkeys, -⟩ := effect.inputs_kept
  have hunread := exec_unread h (k := s.keys) (b := b) (fun _ => rfl) (fun hrnd => absurd hrnd hi) (fun _ => rfl) effect.st_kept
  exact hunread.trans (by rw [← hkeys])

/-- Settles O19: LD ST, Vx alone has a new ST of its own. -/
theorem soundTimerIsReadByNoInstruction : Obligations.SoundTimerIsReadByNoInstruction := by
  intro i s t b h
  obtain ⟨hkeys, hrand, -⟩ := (exec_effect h).inputs_kept
  have hunread {c' : Byte} := exec_unread h (c := b) (c' := c') (fun _ => rfl) (fun _ => rfl)
  by_cases hi : mnemonic i = "LD_ST_x"
  · exact ⟨_, hunread (fun _ => rfl) (fun hne => absurd hi hne), by rw [← hkeys, ← hrand]⟩
  · exact ⟨_, hunread (fun heq => absurd heq hi) (fun _ => rfl), by rw [← hkeys, ← hrand]⟩

end Sys2Proof.Machine
end

section
/-! The family of 40_cycle.md: the whole step (R149), its timers (R142), its key scan (R143) and its end (R147). -/

namespace Sys2Proof.Machine

/-! ## The key wait -/

/-- The timers stand still in the wait (92_eei_decisions.md D17). -/
theorem waitCycle_eq (k : Reg) (s : State) : waitCycle k s = (s.scanKeys k).endStep := rfl

theorem State.scanKeys_of_none {s : State} (k : Reg) (h : lowestKey s.keys = none) : s.scanKeys k = s := by
  simp only [State.scanKeys, h]

theorem State.scanKeys_of_some {s : State} (k : Reg) {j : Fin 16} (h : lowestKey s.keys = some j) :
    s.scanKeys k = (s.setV k (BitVec.ofNat 8 j.val)).setMode .running := by
  simp only [State.scanKeys, h]

/-- The scan writes the registers and the mode alone. -/
theorem State.scanKeys_frame (s : State) (k : Reg) :
    s.scanKeys k = { s with v := (s.scanKeys k).v, mode := (s.scanKeys k).mode } := by
  cases h : lowestKey s.keys with
  | none => rw [State.scanKeys_of_none k h]
  | some j => rw [State.scanKeys_of_some k h]; rfl

theorem State.scanKeys_status (s : State) (k : Reg) : (s.scanKeys k).status = s.status := by rw [State.scanKeys_frame]
theorem State.scanKeys_displayChanged (s : State) (k : Reg) : (s.scanKeys k).displayChanged = s.displayChanged := by
  rw [State.scanKeys_frame]
theorem State.scanKeys_rendererOut (s : State) (k : Reg) : (s.scanKeys k).rendererOut = s.rendererOut := by rw [State.scanKeys_frame]

theorem waitCycle_frame (k : Reg) (s : State) :
    waitCycle k s = { s with v := (waitCycle k s).v, mode := (waitCycle k s).mode, rendererOut := (waitCycle k s).rendererOut,
                             displayChanged := (waitCycle k s).displayChanged } := by
  rw [waitCycle_eq, State.endStep_frame, State.scanKeys_frame]

@[simp] theorem waitCycle_mem (k : Reg) (s : State) : (waitCycle k s).mem = s.mem := by rw [waitCycle_frame]
@[simp] theorem waitCycle_pc (k : Reg) (s : State) : (waitCycle k s).pc = s.pc := by rw [waitCycle_frame]
@[simp] theorem waitCycle_stack (k : Reg) (s : State) : (waitCycle k s).stack = s.stack := by rw [waitCycle_frame]
@[simp] theorem waitCycle_dt (k : Reg) (s : State) : (waitCycle k s).dt = s.dt := by rw [waitCycle_frame]
@[simp] theorem waitCycle_st (k : Reg) (s : State) : (waitCycle k s).st = s.st := by rw [waitCycle_frame]
@[simp] theorem waitCycle_keys (k : Reg) (s : State) : (waitCycle k s).keys = s.keys := by rw [waitCycle_frame]
@[simp] theorem waitCycle_inputs (k : Reg) (s : State) : (waitCycle k s).inputs = s.inputs := by rw [waitCycle_frame]
@[simp] theorem waitCycle_status (k : Reg) (s : State) : (waitCycle k s).status = s.status := by rw [waitCycle_frame]

/-! ## The end of a step -/

/-- A step that did not raise presents the frame after its other signals, if the display changed. -/
theorem State.endStep_rendererOut {s : State} (h : s.status = .ok) :
    s.endStep.rendererOut = s.rendererOut ++ if s.displayChanged then [.present s.endStep.fb] else [] := by
  cases hd : s.displayChanged with
  | false => simp [State.endStep_unchanged hd]
  | true => simp [State.endStep_changed h hd]

theorem State.endStep_displayChanged {s : State} (h : s.status = .ok) : s.endStep.displayChanged = false := by
  cases hd : s.displayChanged with
  | false => rw [State.endStep_unchanged hd, hd]
  | true => rw [State.endStep_changed h hd]

/-! ## What a step is, in each case -/

section StepEquations
variable {s : State} (hstatus : s.status = .ok)
include hstatus

theorem step_of_waiting {k : Reg} (hmode : s.mode = .waitingForKey k) : step s = .next (waitCycle k s.beginStep) := by
  simp only [step, cycle, hstatus, hmode]

theorem step_of_fetch_error {a : Nat} (hmode : s.mode = .running) (hfetch : fetchWord s.mem s.pc.toNat = .error a) :
    step s = .next (s.beginStep.decay.raiseFetch a) := by
  simp only [step, cycle, hstatus, hmode, runCycle, State.decay_mem, State.decay_pc, State.beginStep_mem, State.beginStep_pc, hfetch]

theorem step_of_unknown {w : Word} (hmode : s.mode = .running) (hfetch : fetchWord s.mem s.pc.toNat = .ok w)
    (hdecode : decode w = .unknown w) : step s = .next (s.beginStep.decay.raiseUnknown w) := by
  simp only [step, cycle, hstatus, hmode, runCycle, State.decay_mem, State.decay_pc, State.beginStep_mem, State.beginStep_pc, hfetch,
    hdecode]

end StepEquations

/-- A step that answers a next state, of a running machine whose word is an instruction, has executed it. -/
theorem step_executes {s t : State} {w : Word} {i : Instr} (h : step s = .next t) (hmode : s.mode = .running)
    (hfetch : fetchWord s.mem s.pc.toNat = .ok w) (hdecode : decode w = .known i) :
    ∃ u, exec i s.beginStep.decay.advancePc = .next u ∧ t = u.endStep := by
  obtain ⟨u, hu⟩ := exec_next i s.beginStep.decay.advancePc
  rw [step_of_exec (step_next h).1 hmode hfetch hdecode hu] at h
  cases h
  exact ⟨u, hu, rfl⟩

/-- A fatal condition of an instruction, after the fetch: pc is where it was before the step, and the step is otherwise the decay. -/
theorem State.raise_advancePc (s : State) (i : Instr) (k : FatalKind) (n : Nat) :
    s.advancePc.raise i k n = s.halt ⟨k, s.pc, some (encode i), n⟩ := by
  have hpc : s.pc + 2#16 - 2#16 = s.pc := BitVec.add_sub_cancel ..
  simp only [State.raise, State.advancePc_pc, hpc]
  rfl

/-- An instruction that raises was decoded from its own word: the two whose low nibble is not decoded raise nothing. -/
theorem Raises.encode_eq {s : State} {i : Instr} {k : FatalKind} {n : Nat} {w : Word} (h : Raises s i k n)
    (hdecode : decode w = .known i) : encode i = w := by
  rcases decode_known hdecode with ⟨-, -, hword⟩ | ⟨-, rfl⟩ | ⟨-, rfl⟩
  · exact hword
  · cases h
  · cases h

/-- What the record of a step from `s` that halts the machine holds: the fetch failed, or the word is unknown, or its instruction raised
(60_exceptions.md R321). -/
inductive HaltRecord (s : State) : FatalRecord → Prop
  | fetch {a : Nat} (hfetch : fetchWord s.mem s.pc.toNat = .error a) : HaltRecord s ⟨.memoryOutOfRange, s.pc, none, a⟩
  | unknown {w : Word} (hfetch : fetchWord s.mem s.pc.toNat = .ok w) (hdecode : decode w = .unknown w) :
      HaltRecord s ⟨.unknownOpcode, s.pc, some w, w.toNat⟩
  | raised {w : Word} {i : Instr} {k : FatalKind} {n : Nat} (hfetch : fetchWord s.mem s.pc.toNat = .ok w)
      (hdecode : decode w = .known i) (hraises : Raises s.beginStep.decay.advancePc i k n) : HaltRecord s ⟨k, s.pc, some w, n⟩

/-- A step that halts the machine is its inputs and its timer decay, and a record. -/
theorem step_halts {s t : State} {r : FatalRecord} (h : step s = .next t) (ht : t.status = .halted r) :
    t = s.beginStep.decay.halt r ∧ HaltRecord s r := by
  obtain ⟨hs, ⟨k, -, rfl⟩ | ⟨-, ⟨a, hfetch, rfl⟩ | ⟨w, hfetch, hdecode, rfl⟩ | ⟨w, i, u, hfetch, hdecode, hexec, rfl⟩⟩⟩ := step_next h
  · rw [waitCycle_status, State.beginStep_status, hs] at ht; cases ht
  · cases ht; exact ⟨rfl, .fetch hfetch⟩
  · cases ht; exact ⟨rfl, .unknown hfetch hdecode⟩
  · rw [State.endStep_status] at ht
    obtain ⟨k, n, hraises, rfl⟩ := exec_raises hexec hs ht
    rw [State.endStep_halted ht, State.raise_advancePc, hraises.encode_eq hdecode] at *
    cases ht
    exact ⟨rfl, .raised hfetch hdecode hraises⟩

/-- A step that leaves the machine running was a scan of the keys or an instruction that did not raise. -/
theorem step_completes {s t : State} (h : step s = .next t) (ht : t.status = .ok) :
    (∃ k, s.mode = .waitingForKey k ∧ t = waitCycle k s.beginStep) ∨
    (∃ w i u, s.mode = .running ∧ fetchWord s.mem s.pc.toNat = .ok w ∧ decode w = .known i ∧
      exec i s.beginStep.decay.advancePc = .next u ∧ u.status = .ok ∧ t = u.endStep) := by
  obtain ⟨-, ⟨k, hmode, rfl⟩ | ⟨hmode, ⟨a, -, rfl⟩ | ⟨w, -, -, rfl⟩ | ⟨w, i, u, hfetch, hdecode, hexec, rfl⟩⟩⟩ := step_next h
  · exact .inl ⟨k, hmode, rfl⟩
  · cases ht
  · cases ht
  · rw [State.endStep_status] at ht
    exact .inr ⟨w, i, u, hmode, hfetch, hdecode, hexec, ht, rfl⟩

/-- Settles O12: `cycle` asks for the status first. -/
theorem haltedMachineHasNoStep : Obligations.HaltedMachineHasNoStep := by
  intro s r h
  simp only [step, cycle, h]

/-- Settles O13: every arm of `exec` answers a next state, so every case of a step does. -/
theorem everyInstructionAndStepAnswersNext : Obligations.EveryInstructionAndStepAnswersNext := by
  refine ⟨exec_next, fun s hs => ?_⟩
  cases hmode : s.mode with
  | waitingForKey k => exact ⟨_, step_of_waiting hs hmode⟩
  | running =>
    cases hfetch : fetchWord s.mem s.pc.toNat with
    | error a => exact ⟨_, step_of_fetch_error hs hmode hfetch⟩
    | ok w =>
      cases hdecode : decode w with
      | unknown u =>
        cases decode_unknown hdecode
        exact ⟨_, step_of_unknown hs hmode hfetch hdecode⟩
      | known i =>
        obtain ⟨u, hu⟩ := exec_next i s.beginStep.decay.advancePc
        exact ⟨_, step_of_exec hs hmode hfetch hdecode hu⟩

/-- Settles O8: the written-out state is `s.beginStep.decay.advancePc`, and `exec` answers neither a fault nor a refusal. -/
theorem stepRunsTheDecodedInstruction : Obligations.StepRunsTheDecodedInstruction := by
  intro s w i hs hmode hfetch hdecode _ o ho
  obtain ⟨u, hu⟩ := exec_next i s.beginStep.decay.advancePc
  cases ho.symm.trans hu
  refine ⟨fun t ht => ?_, nofun, nofun⟩
  cases ht
  exact step_of_exec hs hmode hfetch hdecode hu

/-- Settles O9, from the step's equation on an unknown word. -/
theorem stepOnUnknownWordHalts : Obligations.StepOnUnknownWordHalts := by
  intro s w hs hmode hfetch hdecode
  exact ⟨_, step_of_unknown hs hmode hfetch hdecode, rfl, satDec_toNat s.dt, satDec_toNat s.st, rfl⟩

/-- Settles O10, from the step's equation where the fetch fails. -/
theorem stepWithFetchOutOfRangeHalts : Obligations.StepWithFetchOutOfRangeHalts := by
  intro s hs hmode hpc
  exact ⟨_, step_of_fetch_error hs hmode (fetchWord_error (Nat.succ_le_succ hpc)), rfl⟩

/-- Settles O11, from what the record of a halting step holds. -/
theorem faultingStepKeepsOnlyTimerDecay : Obligations.FaultingStepKeepsOnlyTimerDecay := by
  intro s t r h ht
  obtain ⟨rfl, hrecord⟩ := step_halts h ht
  refine ⟨?fetchPc, ?word, ?fetchFailed, satDec_toNat s.dt, satDec_toNat s.st, rfl⟩
  case fetchPc => cases hrecord <;> rfl
  case word =>
    intro w hw
    cases hrecord with
    | fetch hfetch => rw [hfetch] at hw; cases hw
    | unknown hfetch | raised hfetch => rw [hfetch] at hw; cases hw; rfl
  case fetchFailed =>
    intro a ha
    cases hrecord with
    | fetch hfetch => rw [hfetch] at ha; cases ha; exact ⟨rfl, rfl, rfl⟩
    | unknown hfetch | raised hfetch => rw [hfetch] at ha; cases ha

/-- Settles O14: the scan finds the lowest key held, or none. -/
theorem waitStepScansTheKeys : Obligations.WaitStepScansTheKeys := by
  intro s k hs hmode
  refine ⟨_, step_of_waiting hs hmode, waitCycle_frame k s.beginStep, fun hnone => ?still, fun j hj hbelow => ?found⟩
  case still =>
    rw [waitCycle_keys] at hnone
    rw [waitCycle_eq, State.scanKeys_of_none k (lowestKey_eq_none.mpr hnone), State.endStep_v, State.endStep_mode]
    exact ⟨rfl, hmode⟩
  case found =>
    rw [waitCycle_keys] at hj hbelow
    rw [waitCycle_eq, State.scanKeys_of_some k (lowestKey_eq_some.mpr ⟨hj, hbelow⟩), State.endStep_v, State.endStep_mode]
    refine ⟨rfl, ?_, fun r hr => State.setV_read_other _ _ hr⟩
    rw [State.setMode_v, State.setV_read_self, BitVec.toNat_ofNat]
    omega

/-- Settles O59: entering the wait is one `setMode`, after pc has advanced, and the step that runs it scans no key. -/
theorem keyWaitIsEnteredPastTheInstruction : Obligations.KeyWaitIsEnteredPastTheInstruction := by
  refine ⟨fun _ _ => rfl, fun s w x hs hmode hfetch hdecode => ?_⟩
  refine ⟨_, step_of_exec hs hmode hfetch hdecode rfl, ?status, State.endStep_mode _, State.endStep_v _, ?pc⟩
  case status => rw [State.endStep_status]; exact hs
  case pc =>
    have hpc : s.pc.toNat + 1 < 4096 := fetchWord_lt hfetch
    rw [State.endStep_pc, State.setMode_pc, State.advancePc_pc, State.decay_pc, State.beginStep_pc, BitVec.toNat_add]
    simp only [BitVec.toNat_ofNat]
    omega

/-- Every step takes its inputs, and no instruction writes them. -/
theorem step_takes_input {s t : State} (h : step s = .next t) : t.keys = s.nextInput.keys ∧ t.inputs = s.inputs.tail := by
  obtain ⟨-, ⟨k, -, rfl⟩ | ⟨-, ⟨a, -, rfl⟩ | ⟨w, -, -, rfl⟩ | ⟨w, i, u, -, -, hexec, rfl⟩⟩⟩ := step_next h
  · simp
  · exact ⟨rfl, rfl⟩
  · exact ⟨rfl, rfl⟩
  · obtain ⟨hkeys, -, hinputs, -⟩ := (exec_effect hexec).inputs_kept
    simp [hkeys, hinputs]

/-- Settles O17: the snapshot comes with the step's inputs, and instructions do not read it but for SKP and SKNP. -/
theorem keySnapshotIsReplacedWholesaleAndOnlyRead : Obligations.KeySnapshotIsReplacedWholesaleAndOnlyRead := by
  refine ⟨fun s t h => ⟨fun x rest hinputs => ?lined, fun hinputs => ?free⟩, fun i s t h => (exec_effect h).inputs_kept.1,
    fun i s t k hi h => ?unread⟩
  case lined =>
    have hinput := step_takes_input h
    rwa [State.nextInput, hinputs] at hinput
  case free =>
    have hinput := (step_takes_input h).1
    rwa [State.nextInput, hinputs] at hinput
  case unread =>
    have effect := exec_effect h
    obtain ⟨-, hrand, -⟩ := effect.inputs_kept
    have hunread := exec_unread h (k := k) (b := s.rand8) (fun hskip => absurd hskip hi) (fun _ => rfl) (fun _ => rfl) effect.st_kept
    exact hunread.trans (by rw [← hrand])

theorem eq_ldDtX_of_mnemonic {i : Instr} (h : mnemonic i = "LD_DT_x") : ∃ x, i = .ldDtX x := by
  cases i
  case ldDtX x => exact ⟨x, rfl⟩
  all_goals simp [mnemonic] at h

theorem eq_ldStX_of_mnemonic {i : Instr} (h : mnemonic i = "LD_ST_x") : ∃ x, i = .ldStX x := by
  cases i
  case ldStX x => exact ⟨x, rfl⟩
  all_goals simp [mnemonic] at h

/-- A step that starts in Running halts after the decay, or has executed an instruction. -/
theorem step_running {s t : State} (h : step s = .next t) (hmode : s.mode = .running) :
    (∃ r, t = s.beginStep.decay.halt r) ∨
    (∃ w i u, fetchWord s.mem s.pc.toNat = .ok w ∧ decode w = .known i ∧ exec i s.beginStep.decay.advancePc = .next u ∧
      t = u.endStep) := by
  obtain ⟨-, ⟨k, hwait, -⟩ | ⟨-, ⟨a, -, rfl⟩ | ⟨w, -, -, rfl⟩ | hexecuted⟩⟩ := step_next h
  · rw [hmode] at hwait; cases hwait
  · exact .inl ⟨_, rfl⟩
  · exact .inl ⟨_, rfl⟩
  · exact .inr hexecuted

/-- A running step whose instruction, if it has one, is not LD DT, Vx leaves the decayed DT. -/
theorem step_dt_decays {s t : State} (h : step s = .next t) (hmode : s.mode = .running)
    (hother : ∀ w x, fetchWord s.mem s.pc.toNat = .ok w → decode w ≠ .known (.ldDtX x)) : t.dt = satDec s.dt := by
  rcases step_running h hmode with ⟨r, rfl⟩ | ⟨w, i, u, hfetch, hdecode, hexec, rfl⟩
  · rfl
  · rw [State.endStep_dt]
    refine (exec_effect hexec).dt_kept fun hi => ?_
    obtain ⟨x, rfl⟩ := eq_ldDtX_of_mnemonic hi
    exact hother w x hfetch hdecode

/-- The same for LD ST, Vx and ST. -/
theorem step_st_decays {s t : State} (h : step s = .next t) (hmode : s.mode = .running)
    (hother : ∀ w x, fetchWord s.mem s.pc.toNat = .ok w → decode w ≠ .known (.ldStX x)) : t.st = satDec s.st := by
  rcases step_running h hmode with ⟨r, rfl⟩ | ⟨w, i, u, hfetch, hdecode, hexec, rfl⟩
  · rfl
  · rw [State.endStep_st]
    refine (exec_effect hexec).st_kept fun hi => ?_
    obtain ⟨x, rfl⟩ := eq_ldStX_of_mnemonic hi
    exact hother w x hfetch hdecode

/-- Settles O15: a running step decays both timers first, and its instruction may then write one of them. -/
theorem timersCountDownInRunningStepsOnly : Obligations.TimersCountDownInRunningStepsOnly := by
  intro s t h
  refine ⟨fun k hmode => ?waits, fun hmode => ⟨fun w x hfetch hdecode => ?writesDt, fun hother => ?decaysDt,
    fun w x hfetch hdecode => ?writesSt, fun hother => ?decaysSt⟩⟩
  case waits =>
    rw [step_of_waiting (step_next h).1 hmode] at h
    cases h
    exact ⟨waitCycle_dt k s.beginStep, waitCycle_st k s.beginStep⟩
  case writesDt =>
    obtain ⟨u, hexec, rfl⟩ := step_executes h hmode hfetch hdecode
    cases hexec
    exact State.endStep_dt _
  case decaysDt => rw [step_dt_decays h hmode hother]; exact satDec_toNat s.dt
  case writesSt =>
    obtain ⟨u, hexec, rfl⟩ := step_executes h hmode hfetch hdecode
    cases hexec
    exact State.endStep_st _
  case decaysSt => rw [step_st_decays h hmode hother]; exact satDec_toNat s.st

/-- An instruction that does not raise signals `clear` in CLS and nothing otherwise. -/
theorem Effect.rendererOut_kept {s t : State} {i : Instr} (h : Effect s i t) (ht : t.status = .ok) (hi : i ≠ .cls) :
    t.rendererOut = s.rendererOut := by
  cases h
  case raises => cases ht
  case cls => exact absurd rfl hi
  all_goals simp

/-- DRW marks the display changed whenever it does not raise (44_display.md R273). -/
theorem displayChanged_of_drw {s t : State} {i : Instr} (h : exec i s = .next t) (ht : t.status = .ok) (hi : mnemonic i = "DRW") :
    t.displayChanged = true := by
  cases i
  case drw =>
    rcases execDrw_cases h with ⟨-, -, rfl⟩ | ⟨-, rfl⟩
    · cases ht
    · rfl
  all_goals simp [mnemonic] at hi

/-- Settles O16: the signals of the instruction, then the frame if the flag is set at the end of the step. -/
theorem stepPresentsTheChangedDisplayOnce : Obligations.StepPresentsTheChangedDisplayOnce := by
  intro s t h
  refine ⟨fun r ht => ?halted, fun ht => ⟨?flag, fun k hmode => ?waits, fun w i hmode hfetch hdecode => ?runs⟩⟩
  case halted =>
    obtain ⟨rfl, -⟩ := step_halts h ht
    rfl
  case flag =>
    rcases step_completes h ht with ⟨k, -, rfl⟩ | ⟨w, i, u, -, -, -, -, hu, rfl⟩
    · exact State.endStep_displayChanged ((State.scanKeys_status _ k).trans (step_next h).1)
    · exact State.endStep_displayChanged hu
  case waits =>
    have hs := (step_next h).1
    rw [step_of_waiting hs hmode] at h
    cases h
    rw [waitCycle_eq, State.endStep_rendererOut ((s.beginStep.scanKeys_status k).trans hs), State.scanKeys_displayChanged,
      State.scanKeys_rendererOut]
    rfl
  case runs =>
    obtain ⟨u, hexec, rfl⟩ := step_executes h hmode hfetch hdecode
    rw [State.endStep_status] at ht
    rw [State.endStep_rendererOut ht]
    have effect := exec_effect hexec
    refine ⟨fun hi => ?cls, fun hi => ?drw, fun hi => ?other⟩
    case cls => subst hi; cases hexec; rfl
    case drw =>
      have hcls : i ≠ .cls := by rintro rfl; simp [mnemonic] at hi
      rw [displayChanged_of_drw hexec ht hi, effect.rendererOut_kept ht hcls]
      rfl
    case other =>
      have hcls : i ≠ .cls := by rintro rfl; simp [mnemonic] at hi
      rw [(effect.display_kept hi).2, effect.rendererOut_kept ht hcls]
      rfl

end Sys2Proof.Machine
end

section
/-! The invariant between steps (10_state.md R20, R25, R26, R31, 20_memory.md R60, 60_exceptions.md R320, R321) and the state after reset
(10_state.md R37). -/

namespace Sys2Proof.Machine

/-! ## What each effect keeps -/

theorem zextByte_toNat (b : Byte) : (zextByte b).toNat = b.toNat := BitVec.toNat_setWidth_of_le (by decide)

/-- JP V0: the sum of a 12-bit address and a byte fits 16 bits, so it is exact (92_eei_decisions.md D30). -/
theorem zextAddr_add_zextByte_toNat (nnn : BitVec 12) (b : Byte) : (zextAddr nnn + zextByte b).toNat = nnn.toNat + b.toNat := by
  have := nnn.isLt
  have := b.isLt
  rw [BitVec.toNat_add, zextAddr_toNat, zextByte_toNat]
  omega

section EffectKeeps
variable {s t : State} {i : Instr} (h : Effect s i t)
include h

theorem Effect.mem_wf (hmem : Memory.wf s.mem = true) : Memory.wf t.mem = true := by
  cases h
  case stores l hfit _ => exact storeBytes_wf l hmem hfit
  all_goals simpa using hmem

theorem Effect.stack_bounded (hstack : s.stack.length ≤ stackDepth) : t.stack.length ≤ stackDepth := by
  cases h
  case ret l w hlast =>
    rw [hlast, List.length_append] at hstack
    exact (Nat.le_add_right _ _).trans hstack
  case call hroom => simpa using hroom
  all_goals simpa using hstack

/-- While an instruction executes pc is past a fetch that succeeded, so at most 0x1000 (10_state.md R25). -/
theorem Effect.stack_entries (hpc : s.pc.toNat ≤ 0x1000) (hstack : ∀ w ∈ s.stack, w.toNat ≤ 0x1000) :
    ∀ w ∈ t.stack, w.toNat ≤ 0x1000 := by
  cases h
  case ret l w hlast => exact fun w hw => hstack w (hlast ▸ List.mem_append_left _ hw)
  case call =>
    intro w hw
    rcases List.mem_append.mp hw with hold | hnew
    · exact hstack w hold
    · rw [List.mem_singleton.mp hnew]; exact hpc
  all_goals simpa using hstack

theorem Effect.pc_bounded (hpc : s.pc.toNat ≤ 0x1000) (hstack : ∀ w ∈ s.stack, w.toNat ≤ 0x1000) (ht : t.status = .ok) :
    t.pc.toNat ≤ 0x10FE := by
  have kept : s.pc.toNat ≤ 0x10FE := hpc.trans (by decide)
  cases h
  case raises => cases ht
  case ret l w hlast =>
    have hw : w ∈ s.stack := hlast ▸ List.mem_append_right l (List.mem_singleton_self w)
    exact (hstack w hw).trans (by decide)
  case call nnn _ | jp nnn =>
    rw [State.setPc_pc, zextAddr_toNat]
    have := nnn.isLt
    omega
  case jpV0 nnn =>
    rw [State.setPc_pc, zextAddr_add_zextByte_toNat]
    have := nnn.isLt
    have := (s.getV 0).isLt
    omega
  case skips c _ =>
    rw [State.skipIf_pc]
    cases c
    · exact kept
    · have hsum : (s.pc + 2#16).toNat ≤ s.pc.toNat + 2 := Nat.mod_le _ _
      exact hsum.trans (by omega)
  all_goals simpa using kept

end EffectKeeps

/-- A record that a step leaves is accurate. -/
theorem HaltRecord.accurate {s : State} {r : FatalRecord} (h : HaltRecord s r) : r.Accurate := by
  cases h
  case fetch a hfetch =>
    rcases fetchWord_cases s.mem s.pc.toNat with ⟨-, hok⟩ | ⟨hout, herror⟩
    · rw [hok] at hfetch; cases hfetch
    · rw [herror] at hfetch; cases hfetch
      exact ⟨Nat.le_max_right _ _, Nat.le_of_succ_le_succ hout, rfl⟩
  case unknown w _ hdecode => exact ⟨w, rfl, hdecode, rfl⟩
  case raised w i k n _ hdecode hraises =>
    have hword := hraises.encode_eq hdecode
    cases hraises with
    | ret => exact ⟨congrArg some hword.symm, rfl⟩
    | call nnn => exact ⟨w, nnn, rfl, hdecode, rfl⟩
    | drw x y n => exact accurate_memoryOutOfRange (.inl hdecode)
    | ldB x => exact accurate_memoryOutOfRange (y := 0) (n := 0) (.inr (.inl hdecode))
    | ldMemX x => exact accurate_memoryOutOfRange (y := 0) (n := 0) (.inr (.inr (.inl hdecode)))
    | ldXMem x => exact accurate_memoryOutOfRange (y := 0) (n := 0) (.inr (.inr (.inr hdecode)))

/-- Settles O22: a step that halts has moved nothing the invariant speaks of but the record; else it was a scan of the keys, or an effect
made with pc past a fetch that succeeded. -/
theorem stepKeepsTheInvariant : Obligations.StepKeepsTheInvariant := by
  intro s t hinv h
  obtain ⟨hmem, hdepth, hentries, hpc, hdisplay, -⟩ := hinv
  cases ht : t.status with
  | halted r =>
    obtain ⟨rfl, hrecord⟩ := step_halts h ht
    exact ⟨hmem, hdepth, hentries, hpc, hdisplay, fun r' hr' => by cases hr'; exact hrecord.accurate⟩
  | ok =>
    have noRecord : ∀ r, t.status = .halted r → r.Accurate := fun r hr => by rw [ht] at hr; cases hr
    have presented := (stepPresentsTheChangedDisplayOnce s t h).2 ht |>.1
    rcases step_completes h ht with ⟨k, -, rfl⟩ | ⟨w, i, u, -, hfetch, -, hexec, hu, rfl⟩
    · refine ⟨?_, ?_, ?_, ?_, presented, noRecord⟩ <;> simpa
    · have effect := exec_effect hexec
      have hpast : s.beginStep.decay.advancePc.pc.toNat ≤ 0x1000 := by
        have hlt : s.pc.toNat + 1 < 4096 := fetchWord_lt hfetch
        have hsum : (s.pc + 2#16).toNat ≤ s.pc.toNat + 2 := Nat.mod_le _ _
        exact hsum.trans (by omega)
      refine ⟨?_, ?_, ?_, ?_, presented, noRecord⟩
      · rw [State.endStep_mem]; exact effect.mem_wf hmem
      · rw [State.endStep_stack]; exact effect.stack_bounded hdepth
      · rw [State.endStep_stack]; exact effect.stack_entries hpast hentries
      · rw [State.endStep_pc]; exact effect.pc_bounded hpast hentries hu

/-- Settles O21: nothing is listed in memory, the stack is empty and pc is 0x200. -/
theorem resetMeetsTheInvariant : Obligations.ResetMeetsTheInvariant where
  memCanonical := rfl
  stackBounded := Nat.zero_le _
  stackEntries := List.forall_mem_nil _
  pcBounded := by decide
  displayPresented := rfl
  recordAccurate := nofun

/-- Settles O20: memory after reset lists no address, so each reads as its reset byte, the font at base 0 and zeroes behind it. -/
theorem resetLeavesTheStatedValues : Obligations.ResetLeavesTheStatedValues := by
  refine ⟨by decide, rfl, rfl, rfl, rfl, rfl, rfl, rfl, rfl, by decide, pixel_clearedFb, fun a _ => rfl, fun a ha _ => ?_⟩
  have hlength : fontData.length ≤ a := ha
  exact List.getD_eq_default _ _ hlength

end Sys2Proof.Machine
end

section
/-! The family of 41_control.md: CALL and RET (R171, R173), the skips on registers (R176, R177) and JP V0 (R178). -/

namespace Sys2Proof.Machine

/-- Settles O31, from CALL's equation below the capacity and at or above it, whichever of 12 to 16 the capacity is. -/
theorem callOverflowsBetweenTwelveAndSixteen : Obligations.CallOverflowsBetweenTwelveAndSixteen := by
  intro nnn s hs
  obtain ⟨hleast, hmost⟩ := stackDepth_bounds
  rcases Nat.lt_or_ge s.stack.length stackDepth with hroom | hfull
  · exact ⟨_, execCall_of_lt hroom, fun _ => hs, fun hsixteen => absurd (hsixteen ▸ hroom) (Nat.not_lt.mpr hmost)⟩
  · exact ⟨_, execCall_of_ge hfull, fun htwelve => absurd (htwelve.trans_le hleast) (Nat.not_lt.mpr hfull),
      fun _ => ⟨_, State.raise_status .., rfl, hleast, hmost⟩⟩

/-- Settles O32: RET pops what CALL pushed, the address after the call. -/
theorem retUndoesCall : Obligations.RetUndoesCall :=
  fun _ s _ hroom => ⟨_, execCall_of_lt hroom, execRet_of_append (l := s.stack) (w := s.pc) rfl⟩

/-- Settles O29: the 16-bit sum is the exact one. -/
theorem jpV0SetsPcToTheExactSum : Obligations.JpV0SetsPcToTheExactSum :=
  fun nnn s => ⟨s.setPc (zextAddr nnn + zextByte (s.getV 0)), rfl, rfl, zextAddr_add_zextByte_toNat nnn (s.getV 0)⟩

/-- Settles O34: two registers are equal exactly when their values are. -/
theorem skipsOnRegisters : Obligations.SkipsOnRegisters := by
  intro x y s
  have sameValue : s.v[x].toNat = s.v[y].toNat ↔ s.getV x = s.getV y := BitVec.toNat_inj
  simp only [sameValue]
  refine ⟨?equal, ?notEqual⟩
  case equal => exact congrArg _ (s.skipIf_decide (s.getV x = s.getV y))
  case notEqual =>
    rw [← ite_not]
    exact congrArg _ (s.skipIf_decide (s.getV x ≠ s.getV y))

end Sys2Proof.Machine
end

section
/-! The family of 42_alu.md: OR, AND, XOR (R205 to R207), SUBN (R212), SHR (R211) and RND (R214). -/

namespace Sys2Proof.Machine

/-- An instruction that writes one register, told bit by bit. -/
theorem exec_writes_bits {i : Instr} {s : State} {x : Reg} {b : Byte} {bit : Nat → Bool} (hexec : exec i s = .next (s.setV x b))
    (hbits : ∀ k, b.getLsbD k = bit k) :
    ∃ t, exec i s = .next t ∧ t = { s with v := t.v } ∧ (∀ r : Reg, r ≠ x → t.v[r] = s.v[r]) ∧ ∀ k, t.v[x].getLsbD k = bit k := by
  refine ⟨_, hexec, rfl, fun r hr => s.setV_read_other b hr, fun k => ?_⟩
  rw [s.setV_read_self, hbits]

/-- Settles O36: each is one `setV` of the two registers combined bit by bit. -/
theorem logicWritesVxOnly : Obligations.LogicWritesVxOnly := by
  intro x y s
  refine ⟨?or, ?and, ?xor⟩
  case or => exact exec_writes_bits rfl fun _ => BitVec.getLsbD_or
  case and => exact exec_writes_bits rfl fun _ => BitVec.getLsbD_and
  case xor => exact exec_writes_bits rfl fun _ => BitVec.getLsbD_xor

/-- Settles O42: RND is one `setV` of the random byte masked. -/
theorem rndMasksTheRandomByte : Obligations.RndMasksTheRandomByte := by
  intro x nn s
  obtain ⟨t, hexec, hframe, hothers, hbits⟩ := exec_writes_bits (i := .rnd x nn) (s := s) rfl fun _ => BitVec.getLsbD_and
  exact ⟨t, hexec, hframe, hbits, hothers⟩

/-- Settles O39: SUB's flag and difference with the operands exchanged. -/
theorem subnSetsNoBorrowLast : Obligations.SubnSetsNoBorrowLast :=
  fun _ _ _ => exec_writes_result_then_flag rfl (noBorrowFlag_toNat _ _) (byteSub_toNat _ _)

/-- The bit a right shift drops is the byte's value modulo 2. -/
theorem shiftRightOut_toNat (a : Byte) : (shiftRightOut a).toNat = a.toNat % 2 := by
  rw [shiftRightOut, BitVec.toNat_and]
  exact Nat.and_one_is_mod a.toNat

theorem byteShiftRightOne_toNat (a : Byte) : (a >>> 1).toNat = a.toNat / 2 := by
  rw [BitVec.toNat_ushiftRight, Nat.shiftRight_one]

/-- Settles O40: the bit shifted out is written after the halved value, and SHR does not read V[y]. -/
theorem shrPutsTheLowBitInVF : Obligations.ShrPutsTheLowBitInVF := by
  refine fun x y s => ⟨?shifts, fun z => ?ignoresY⟩
  case shifts => exact exec_writes_result_then_flag rfl (shiftRightOut_toNat _) (byteShiftRightOne_toNat _)
  case ignoresY => rfl

end Sys2Proof.Machine
end

section
/-! The family of 43_index_memory.md: ADD I and LD F (R242, R243), the register dump and load (R245, R246). -/

namespace Sys2Proof.Machine

/-- A glyph's address fits 16 bits: the last glyph starts at FONT_BASE + 75. -/
theorem glyphAddress_toNat (b : Byte) : (glyphAddress b).toNat = fontBase + 5 * (b.toNat % 16) := by
  rw [glyphAddress, and_0xF_toNat, BitVec.toNat_ofNat]
  simp only [fontBase, Config.glyphSize]
  omega

/-- Settles O44: ADD I is the 16-bit sum, LD F the glyph's address. -/
theorem indexAddAndGlyphAddress : Obligations.IndexAddAndGlyphAddress := by
  refine fun x s => ⟨⟨s.setI (s.i + zextByte (s.getV x)), rfl, rfl, ?sum⟩, ⟨s.setI (glyphAddress (s.getV x)), rfl, rfl, ?glyph⟩⟩
  case sum => rw [State.setI_i, BitVec.toNat_add, zextByte_toNat]; rfl
  case glyph => exact glyphAddress_toNat (s.getV x)

/-- Byte `k` of a register dump reads back as V[k]. -/
theorem readByte_dumpRegs {m : Memory} {a : Nat} {x : Reg} (v : Vector Byte 16) (hm : m.wf = true)
    (hfit : a + (x.val + 1) ≤ Config.memSize) {k : Reg} (hk : k ≤ x) :
    readByte (storeBytes m a (v.toList.take (x.val + 1))) (a + k.val) = v[k] := by
  have hlength := length_take_regs v x
  rw [readByte_storeBytes _ hm (by rw [hlength]; exact hfit) k.val (by rw [hlength]; exact Nat.lt_succ_of_le hk), List.getElem_take,
    Vector.getElem_toList]
  rfl

/-- Settles O46, from the dump's equation in range and out of range. -/
theorem registerDumpStoresV0ToVx : Obligations.RegisterDumpStoresV0ToVx := by
  refine fun x s => ⟨fun hin => ⟨_, execLdMemX_of_fits hin, rfl, fun a ha => ?outside, fun hwf k hk => ?stored⟩, fun hout => ?outOfRange⟩
  case outside =>
    refine readByte_storeBytes_outside _ _ _ _ (ha.imp_right fun hlt => ?_)
    rw [length_take_regs]; exact hlt
  case stored => exact readByte_dumpRegs s.v hwf hin hk
  case outOfRange => exact execLdMemX_of_gt (Nat.lt_succ_of_le hout)

/-- Settles O47, from the load's equation in range and out of range. -/
theorem registerLoadReadsV0ToVx : Obligations.RegisterLoadReadsV0ToVx := by
  refine fun x s => ⟨fun hin => ⟨_, execLdXMem_of_fits hin, rfl, fun k hk => ?loaded, fun k hk => ?kept⟩, fun hout => ?outOfRange⟩
  case loaded => exact (loadRegs_get s.mem s.i.toNat x s.v k).trans (if_pos hk)
  case kept => exact (loadRegs_get s.mem s.i.toNat x s.v k).trans (if_neg (Nat.not_le.mpr hk))
  case outOfRange => exact execLdXMem_of_gt (Nat.lt_succ_of_le hout)

/-- Settles O48: the load reads the bytes the dump stored, for neither writes I. -/
theorem registerLoadUndoesDump : Obligations.RegisterLoadUndoesDump := by
  intro x s v hwf hin
  refine ⟨_, _, execLdMemX_of_fits hin, execLdXMem_of_fits hin, rfl, fun k hk => ?_⟩
  exact (loadRegs_get _ _ x v k).trans ((if_pos hk).trans (readByte_dumpRegs s.v hwf hin hk))

/-- Settles O49: the fetch's high byte is the byte stored at its address. -/
theorem storedBytesAreFetched : Obligations.StoredBytesAreFetched := by
  intro x k s hwf hin hk
  have hnext : s.i.toNat + k.val + 1 < 4096 := by
    have hkx : k.val < x.val := hk
    omega
  refine ⟨_, _, execLdMemX_of_fits hin, fetchWord_ok hnext, ?_⟩
  rw [ofBytes_toNat, State.setMem_mem, readByte_dumpRegs s.v hwf hin (Fin.le_of_lt hk)]

end Sys2Proof.Machine
end

section
/-! The families of 20_memory.md and 70_reset_and_hazards.md: reads after writes (R68, R70) and an image that does not fit (R352). -/

namespace Sys2Proof.Machine

/-- Settles O50: one read after a write, twice. -/
theorem readReturnsTheMostRecentWrite : Obligations.ReadReturnsTheMostRecentWrite := by
  intro m a b x y hwf ha _ c
  rw [readByte_writeByte b c y (writeByte_wf x hwf ha), readByte_writeByte a c x hwf]

/-- Settles O52: the load port asks whether the image fits. -/
theorem imageThatDoesNotFitStartsNoMachine : Obligations.ImageThatDoesNotFitStartsNoMachine := by
  intro image s hlong
  have hmisfit : ¬ imageFits image := Nat.not_le.mpr hlong
  exact ⟨if_neg hmisfit, if_neg hmisfit⟩

end Sys2Proof.Machine
end

section
/-! The family of 44_display.md: DRW (R272 to R274). -/

namespace Sys2Proof.Machine

/-- The blit collides where the sprite lights a pixel that was 1 (44_display.md R274). -/
theorem Blit.drawRows_hit_spriteLit {fb : Framebuffer} {m : Memory} {a r0 c0 k : Nat} (hk : r0 + k ≤ 32) :
    (Blit.drawRows { fb := fb, hit := false } m a r0 c0 k).hit = true ↔
      ∃ r < 32, ∃ c < 64, pixel fb r c = true ∧ spriteLit m a r0 c0 k r c = true := by
  have lit (r c : Nat) : spriteLit m a r0 c0 k r c = true ↔
      (r0 ≤ r ∧ r < r0 + k ∧ c0 ≤ c ∧ c < c0 + 8) ∧ spriteBit (readByte m (a + (r - r0))) (c - c0) = true := by
    simp only [spriteLit, spriteBit, Bool.and_eq_true, decide_eq_true_eq]
  simp only [Blit.drawRows_hit _ m a r0 c0 k hk, Bool.false_eq_true, false_or, lit]
  constructor
  · rintro ⟨r, hr, b, hb, hc, hbit, hpixel⟩
    refine ⟨r0 + r, by omega, c0 + b, hc, hpixel, by omega, ?_⟩
    rwa [Nat.add_sub_cancel_left, Nat.add_sub_cancel_left]
  · rintro ⟨r, -, c, hc, hpixel, ⟨hr0, hr, hc0, hc8⟩, hbit⟩
    refine ⟨r - r0, by omega, c - c0, by omega, by omega, hbit, ?_⟩
    rwa [Nat.add_sub_cancel' hr0, Nat.add_sub_cancel' hc0]

/-- The sprite of a DRW, where it is drawn: a 1 at row `r`, column `c` (44_display.md R272, R273). -/
def drwLit (x y : Reg) (n : BitVec 4) (s : State) (r c : Nat) : Bool :=
  spriteLit s.mem s.i.toNat (startRow (s.getV y)) (startColumn (s.getV x)) (drawnRows n (startRow (s.getV y))) r c

section Blit
variable (x y : Reg) (n : BitVec 4) (s : State)

theorem drwBlit_pixel (r : Nat) {c : Nat} (hc : c < 64) :
    pixel (drwBlit x y n s).fb r c = (pixel s.fb r c ^^ drwLit x y n s r c) := by
  rw [drwLit, spriteLit_eq _ _ _ _ _ _ hc]
  exact Blit.drawRows_pixel _ _ _ _ _ _ _ _ (startRow_add_drawnRows n _)

theorem drwBlit_hit :
    (drwBlit x y n s).hit = true ↔ ∃ r < 32, ∃ c < 64, pixel s.fb r c = true ∧ drwLit x y n s r c = true :=
  Blit.drawRows_hit_spriteLit (startRow_add_drawnRows n _)

end Blit

/-- VF after a DRW is 1 exactly when its blit collided. -/
theorem State.collision_flag_eq_one (s : State) (hit : Bool) (fb : Framebuffer) :
    ((s.setV vf (flagByte hit)).setFb fb).v[(15 : Reg)] = 1#8 ↔ hit = true := by
  have hread : ((s.setV vf (flagByte hit)).setFb fb).v[(15 : Reg)] = flagByte hit := s.setV_read_self vf _
  rw [hread, flagByte_eq_one]

/-- Settles O54, from DRW's equation in range and out of range, and what its blit does to each pixel. -/
theorem drwXorsTheClippedSprite : Obligations.DrwXorsTheClippedSprite := by
  rintro x y n s c0 r0 rows rfl rfl rfl
  refine ⟨fun hfit => ⟨_, execDrw_of_fits hfit, rfl, fun r _ c hc => drwBlit_pixel x y n s r hc, ?bit, ?collision, fun r hr => ?others⟩,
    fun hrows hout => execDrw_of_gt hrows hout⟩
  case bit =>
    rw [State.setFb_v]
    cases hhit : (drwBlit x y n s).hit
    · exact .inl (s.setV_read_self vf _)
    · exact .inr (s.setV_read_self vf _)
  case collision => exact (s.collision_flag_eq_one _ _).trans (drwBlit_hit x y n s)
  case others => exact s.setV_read_other _ hr

/-- Settles O55: the second DRW draws the same sprite, and XOR with it twice is the identity. -/
theorem drawingTwiceRestoresTheFramebuffer : Obligations.DrawingTwiceRestoresTheFramebuffer := by
  intro x y n s t h _ ht hx hy
  rcases execDrw_cases h with ⟨-, -, rfl⟩ | ⟨hfit, rfl⟩
  · cases ht
  generalize ht' : (s.setV vf (flagByte (drwBlit x y n s).hit)).setFb (drwBlit x y n s).fb = t at *
  have hfb (r : Nat) {c : Nat} (hc : c < 64) : pixel t.fb r c = (pixel s.fb r c ^^ drwLit x y n s r c) := by
    rw [← ht']; exact drwBlit_pixel x y n s r hc
  have hi : t.i = s.i := by rw [← ht']; rfl
  have hmem : t.mem = s.mem := by rw [← ht']; rfl
  have hgetX : t.getV x = s.getV x := hx
  have hgetY : t.getV y = s.getV y := hy
  have hlit (r c : Nat) : drwLit x y n t r c = drwLit x y n s r c := by simp only [drwLit, hi, hmem, hgetX, hgetY]
  refine ⟨_, execDrw_of_fits (by rwa [hgetY, hi]), Framebuffer.ext_pixel fun r _ c hc => ?restored, ?collides⟩
  case restored =>
    rw [State.setFb_fb, drwBlit_pixel x y n t r hc, hlit, hfb r hc, Bool.xor_assoc, Bool.xor_self, Bool.xor_false]
  case collides =>
    have turnedOn (r : Nat) {c : Nat} (hc : c < 64) :
        (pixel t.fb r c = true ∧ drwLit x y n t r c = true) ↔ (pixel s.fb r c = false ∧ pixel t.fb r c = true) := by
      rw [hlit, hfb r hc]
      cases pixel s.fb r c <;> simp
    rw [State.collision_flag_eq_one, drwBlit_hit]
    exact exists_congr fun r => and_congr_right fun _ => exists_congr fun c => and_congr_right fun hc => turnedOn r hc

end Sys2Proof.Machine
end

section
/-! The family of 45_timers_keys.md: SKP and SKNP (R290 to R292). -/

namespace Sys2Proof.Machine

/-- Under KEY_INDEX_MODE = fault an index above 15 is raised (45_timers_keys.md R290). -/
theorem skipOnKey_fault_of_gt (held : Bool) (i : Instr) {x : Reg} {s : State} (h : 15 < (s.getV x).toNat) :
    skipOnKey .fault held i x s = s.raise i .keyIndexOutOfRange (s.getV x).toNat := by
  have hindex : keyIndex .fault (s.getV x) = none := if_pos h
  simp only [skipOnKey, hindex]

/-- Settles O56: under mask the index is the low nibble; under fault an index of at most 15 is its own low nibble, and one
above is raised. -/
theorem keySkipsTestTheKeyOfVx : Obligations.KeySkipsTestTheKeyOfVx := by
  intro x s
  refine ⟨fun k hk => ⟨?held, ?notHeld⟩, fun held i hin => ?inRange, fun held i hout => ?outOfRange⟩
  case held =>
    obtain ⟨j, hj, hskip⟩ := skipOnKey_mask true (.skp x) x s
    obtain rfl : k = j := Fin.ext (hk.trans hj.symm)
    rw [exec, execSkp, hskip]
    cases hkey : s.keys[k] <;> rfl
  case notHeld =>
    obtain ⟨j, hj, hskip⟩ := skipOnKey_mask false (.sknp x) x s
    obtain rfl : k = j := Fin.ext (hk.trans hj.symm)
    rw [exec, execSknp, hskip]
    cases hkey : s.keys[k] <;> rfl
  case inRange =>
    rcases skipOnKey_cases .fault held i x s with ⟨-, hover, -⟩ | ⟨k, hk, hfault⟩
    · exact absurd hin (Nat.not_le.mpr hover)
    · rcases skipOnKey_cases .mask held i x s with ⟨hmode, -, -⟩ | ⟨j, hj, hmask⟩
      · cases hmode
      · rw [hfault, hmask, Fin.ext (hk.trans hj.symm)]
  case outOfRange => exact skipOnKey_fault_of_gt held i hout

end Sys2Proof.Machine
end
